-- ==== Sys2Proof/Word.lean ====
section
/-! DEFINITION. Word.lean: the word types of the DV312 and the small containers that name one thing per outlet or per port. -/

namespace Sys2Proof

/-- One byte of a frame (R134). -/
abbrev Byte := BitVec 8

/-- A belt position: a 32-bit count that wraps both ways (00_scope.md "Positions", R67). -/
abbrev Pos := BitVec 32

/-- A 24-bit distance of the configuration, 0..16,777,215 counts (R175). -/
abbrev Dist := BitVec 24

/-- An outlet number, 0..3 (03, "The outlet unit holds four outlets"). -/
abbrev OutletId := Fin 4

/-- One value for each of the four outlets. -/
structure PerOutlet (α : Type) where
  o0 : α
  o1 : α
  o2 : α
  o3 : α
deriving DecidableEq, Repr

/-- The value held for outlet `k`. -/
def PerOutlet.get {α : Type} (v : PerOutlet α) (k : OutletId) : α :=
  match k with
  | 0 => v.o0
  | 1 => v.o1
  | 2 => v.o2
  | 3 => v.o3

/-- `v` with the value of outlet `k` replaced. -/
def PerOutlet.set {α : Type} (v : PerOutlet α) (k : OutletId) (x : α) : PerOutlet α :=
  match k with
  | 0 => { v with o0 := x }
  | 1 => { v with o1 := x }
  | 2 => { v with o2 := x }
  | 3 => { v with o3 := x }

/-- The same value for every outlet. -/
def PerOutlet.all {α : Type} (x : α) : PerOutlet α := ⟨x, x, x, x⟩

/-- The value `f k` for every outlet `k`. -/
def PerOutlet.ofFn {α : Type} (f : OutletId → α) : PerOutlet α := ⟨f 0, f 1, f 2, f 3⟩

/-- The four outlet numbers in ascending order. -/
def outletIds : List OutletId := [0, 1, 2, 3]

@[simp] theorem PerOutlet.get_ofFn {α : Type} (f : OutletId → α) (k : OutletId) :
    (PerOutlet.ofFn f).get k = f k := by
  fin_cases k <;> rfl

@[simp] theorem PerOutlet.get_all {α : Type} (x : α) (k : OutletId) :
    (PerOutlet.all x).get k = x := by
  fin_cases k <;> rfl

@[simp] theorem PerOutlet.get_set_self {α : Type} (v : PerOutlet α) (k : OutletId) (x : α) :
    (v.set k x).get k = x := by
  fin_cases k <;> rfl

theorem PerOutlet.get_set_of_ne {α : Type} (v : PerOutlet α) {j k : OutletId} (h : j ≠ k) (x : α) :
    (v.set k x).get j = v.get j := by
  fin_cases j <;> fin_cases k <;> first | rfl | exact absurd rfl h

/-- The two link ports: U faces the line master, D the next station (08). -/
inductive Port where
  | u
  | d
deriving DecidableEq, Repr

/-- One value for each link port. -/
structure PerPort (α : Type) where
  u : α
  d : α
deriving DecidableEq, Repr

/-- The value held for port `p`. -/
def PerPort.get {α : Type} (v : PerPort α) (p : Port) : α :=
  match p with
  | .u => v.u
  | .d => v.d

/-- `v` with the value of port `p` replaced. -/
def PerPort.set {α : Type} (v : PerPort α) (p : Port) (x : α) : PerPort α :=
  match p with
  | .u => { v with u := x }
  | .d => { v with d := x }

@[simp] theorem PerPort.get_set_self {α : Type} (v : PerPort α) (p : Port) (x : α) :
    (v.set p x).get p = x := by
  cases p <;> rfl

@[simp] theorem PerPort.set_set {α : Type} (v : PerPort α) (p : Port) (x y : α) :
    (v.set p x).set p y = v.set p y := by
  cases p <;> rfl

@[simp] theorem PerPort.set_get {α : Type} (v : PerPort α) (p : Port) :
    v.set p (v.get p) = v := by
  cases p <;> rfl

theorem PerPort.get_set_of_ne {α : Type} (v : PerPort α) {p q : Port} (h : p ≠ q) (x : α) :
    (v.set q x).get p = v.get p := by
  cases p <;> cases q <;> first | rfl | exact absurd rfl h

end Sys2Proof
end

