-- ==== Sys2Proof/Syntax.lean ====
section
/-! DEFINITION. Syntax.lean: the commands of the DV312, one constructor per row of spec/opcode_table.json, and the types of
their operands. A command is one event as the block takes it (95_what_each_step_holds.md). -/

namespace Sys2Proof

/-- A symbol as the decoder of a port classifies it (R134). -/
inductive Symbol where
  | data (b : Byte)
  | idle
  | sof
  | eof
  | violation
deriving DecidableEq, Repr

/-- A frame as the relay unit holds it: kind, address byte and payload; the length byte is the payload's length and the CRC-16 is
computed by the transmitter (Table 11-1, R135, R140). -/
structure Frame where
  kind : Byte
  addr : Byte
  payload : List Byte
deriving DecidableEq, Repr

/-- The six photo-eyes (R73). -/
inductive EyeId where
  | entry
  | exit
  | confirm (k : OutletId)
deriving DecidableEq, Repr

/-- The two eyes with blocked detection (R77, R78). -/
inductive EndEye where
  | entry
  | exit
deriving DecidableEq, Repr

/-- The two route banks (R83). -/
inductive BankId where
  | a
  | b
deriving DecidableEq, Repr

/-- Why a port goes DOWN (R137). -/
inductive DownCause where
  | lossOfSignal
  | fourthViolation
deriving DecidableEq, Repr

/-- What ends a frame in assembly before it is complete (R142). -/
inductive TruncationCause where
  | violation
  | idle
  | sof
  | eof
deriving DecidableEq, Repr

/-- What gives a violation error while no frame is in assembly (R145). -/
inductive ViolationCause where
  | violation
  | data
  | eof
deriving DecidableEq, Repr

/-- A receive error as it is taken at a port, with the symbol that shows it where R142 or R145 tells symbols apart (R146). -/
inductive RxEvent where
  | crc
  | violation (by_ : ViolationCause)
  | truncated (by_ : TruncationCause)
  | oversize
  | misdirected
deriving DecidableEq, Repr

/-- The commands: one constructor per row of opcode_table.json, in the table's order. A request row carries the frame's address
byte, the request number and the argument bytes of its code (Table 11-4); a READ_OBJECT row carries the argument bytes after the
object space, which the row itself names. -/
inductive Instr where
  | powerOn
  | resetAsserted
  | resetReleased
  | forwardCount
  | backwardCount
  | reversal
  | blockedLimitReached (eye : EndEye)
  | eyePinChange (eye : EyeId) (high : Bool)
  | entryLeadingEdge
  | entryTrailingEdge
  | confirmLeadingEdge (k : OutletId)
  | confirmTrailingEdge (k : OutletId)
  | exitLeadingEdge
  | exitTrailingEdge
  | approachWindowClose
  | confirmWindowClose
  | exitWindowClose
  | firingWindowEnd (k : OutletId)
  | stall
  | laneFullChange (k : OutletId) (high : Bool)
  | testFireEnd (k : OutletId)
  | bankCheckCompletion
  | ackTimeout
  | noticeChoice
  | portUp (p : Port)
  | portDown (p : Port) (cause : DownCause)
  | receiveError (p : Port) (e : RxEvent)
  | item (addr : Byte) (payload : List Byte)
  | enumerate (v : Byte) (payload : List Byte)
  | downstreamRelay (f : Frame)
  | upstreamRelay (f : Frame)
  | uTransmitGrant
  | dTransmitGrant
  | sendingComplete (p : Port)
  | unknownRequest (addr num code : Byte) (args : List Byte)
  | ident (addr num : Byte) (args : List Byte)
  | config (addr num : Byte) (args : List Byte)
  | bankStatus (addr num : Byte) (args : List Byte)
  | readRoute (bank : BankId) (addr num : Byte) (args : List Byte)
  | queueSnapshot (addr num : Byte) (args : List Byte)
  | schedules (addr num : Byte) (args : List Byte)
  | portStatus (addr num : Byte) (args : List Byte)
  | noticeStatus (addr num : Byte) (args : List Byte)
  | sensorStatus (addr num : Byte) (args : List Byte)
  | writeConfig (addr num : Byte) (args : List Byte)
  | readCounters (addr num : Byte) (args : List Byte)
  | openPlan (addr num : Byte) (args : List Byte)
  | writeSegment (addr num : Byte) (args : List Byte)
  | commitPlan (addr num : Byte) (args : List Byte)
  | dropPlan (addr num : Byte) (args : List Byte)
  | startTracking (addr num : Byte) (args : List Byte)
  | stopTracking (addr num : Byte) (args : List Byte)
  | recover (addr num : Byte) (args : List Byte)
  | restart (addr num : Byte) (args : List Byte)
  | ackNotice (addr num : Byte) (args : List Byte)
  | setNoticeMask (addr num : Byte) (args : List Byte)
  | fireTest (addr num : Byte) (args : List Byte)
  | symbolReceived (p : Port) (sym : Symbol)
  | encoderDoubleChange
deriving DecidableEq, Repr

end Sys2Proof
end

