-- ==== Sys2Proof/Config.lean ====
section
/-! DEFINITION. Config.lean: what the part fixes: its capacities and identity (00_scope.md "Key characteristics", R172).
The spec leaves no value open after any event, so there is no free value here. -/

namespace Sys2Proof.Config

/-- Tracking queue capacity, records (R6). -/
def trackingCapacity : Nat := 32
/-- Firing windows per schedule (R45). -/
def scheduleCapacity : Nat := 8
/-- Notes per trail (R4). -/
def trailCapacity : Nat := 6
/-- Tally queue capacity, frames (R117). -/
def tallyCapacity : Nat := 16
/-- Capacity of each of the downstream relay, upstream relay and hand-off queues (R155, R156, R157). -/
def relayCapacity : Nat := 8
/-- Greatest payload length (Table 11-1, R143). -/
def maxPayload : Nat := 80
/-- Symbols without violation that bring a port UP (R136). -/
def alignSymbols : Nat := 32
/-- Consecutive violations that take a port DOWN (R137). -/
def violationLimit : Nat := 4
/-- Entries of a bank (R83). -/
def bankEntries : Nat := 1024
/-- Segments of a bank (R83). -/
def bankSegments : Nat := 64
/-- The greatest station address (R149). -/
def maxAddress : Nat := 62
/-- The broadcast address (R151). -/
def broadcastAddress : Byte := 63
/-- The part code returned by IDENT (R172, Table 11-6). -/
def partCode : BitVec 16 := 0x0312
/-- The revision number returned by IDENT (R172). -/
def revision : Byte := 1

end Sys2Proof.Config
end

