-- ==== Sys2Proof/Machine/State.lean ====
section
/-! DEFINITION. Machine/State.lean: every piece of state the spec gives the DV312, block by block (00_scope.md "Functional
overview"), as plain data; the reasons a step can stop; the state right after reset. -/

namespace Sys2Proof.Machine

/-- The station modes (R102). -/
inductive Mode where
  | transparent
  | ready
  | tracking
  | trackLost
deriving DecidableEq, Repr

/-- The track-lost cause (R102). -/
inductive Cause where
  | none
  | reversal
  | entryBlocked
  | exitBlocked
deriving DecidableEq, Repr

/-- Pass reasons and the other reasons a note or a tally may carry (Table 11-2). -/
inductive Reason where
  | laneFull
  | late
  | schedFull
  | noPlan
  | noRoute
  | noOutlet
  | overlength
  | outOfService
  | divertMissed
  | passed
deriving DecidableEq, Repr

/-- The ten outcome kinds (Table 1-2). -/
inductive OutcomeKind where
  | diverted
  | divertMissed
  | divertUnconfirmed
  | passed
  | passVanished
  | lost
  | abandoned
  | endOfLine
  | handoffDropped
  | admitRefused
deriving DecidableEq, Repr

/-- The flags of a record (R2). -/
structure Flags where
  stray : Bool
  adopted : Bool
  forcePass : Bool
  trailFull : Bool
deriving DecidableEq, Repr

/-- A trail note: a station address and a reason (R4). -/
structure Note where
  addr : BitVec 6
  reason : Reason
deriving DecidableEq, Repr

/-- A half-open window [open, close) of belt positions (00_scope.md "Windows"). -/
structure Window where
  opens : Pos
  closes : Pos
deriving DecidableEq, Repr

/-- The state of a record with the fields that state holds (R5, Table 1-1): the entry position P from ON_EYE on, the measured
length L from resolution on, the outlet and firing window of a BOUND_OUT record, the pass reason of a BOUND_THROUGH record. -/
inductive Stage where
  | expected
  | onEye (p : Pos)
  | boundOut (p : Pos) (len : BitVec 16) (outlet : OutletId) (window : Window)
  | boundThrough (p : Pos) (len : BitVec 16) (reason : Option Reason)
deriving DecidableEq, Repr

/-- An item record of the tracking queue (R1, Table 1-1). -/
structure ItemRecord where
  tag : BitVec 16
  dest : Option (BitVec 12)
  plan : Byte
  flags : Flags
  hop : Byte
  trail : List Note
  arrival : Pos
  stage : Stage
deriving DecidableEq, Repr

/-- Mode control: the mode, the track-lost cause and the level of the FAULT pin, true when asserted (06). -/
structure ModeControl where
  mode : Mode
  cause : Cause
  fault : Bool
deriving DecidableEq, Repr

/-- The direction of the last belt count, none before the first. The MODEL's own (notes/assumptions/4.md): closes and limits are
taken at a forward count (R67), reversals at a backward count (R69). -/
inductive LastCount where
  | none
  | forward
  | backward
deriving DecidableEq, Repr

/-- An active stall watch (R71, R72). -/
structure Watch where
  elapsed : Nat
  reported : Bool
deriving DecidableEq, Repr

/-- The position unit (R66 to R72). -/
structure PositionUnit where
  encA : Bool
  encB : Bool
  pos : Pos
  highWater : Pos
  last : LastCount
  watch : Option Watch
deriving DecidableEq, Repr

/-- A level change of an eye not yet accepted (R73); `ripe` is the MODEL's mark that its run has reached the filter length, so that
its accepted edge is the next thing the eye gives (notes/assumptions/4.md). -/
structure Candidate where
  blocked : Bool
  stamp : Pos
  run : Nat
  ripe : Bool
deriving DecidableEq, Repr

/-- One photo-eye: its pin level, its stable level (true: blocked) and its candidate (R73). -/
structure Eye where
  pin : Bool
  blocked : Bool
  cand : Option Candidate
deriving DecidableEq, Repr

/-- One lane-full input: its pin level and its held level (R80). -/
structure Lane where
  pin : Bool
  full : Bool
deriving DecidableEq, Repr

/-- The sensor unit (R73 to R80). -/
structure SensorUnit where
  entry : Eye
  exit : Eye
  confirm : PerOutlet Eye
  entrySince : Pos
  exitSince : Pos
  lanes : PerOutlet Lane
deriving DecidableEq, Repr

/-- One outlet: its firing schedule, its actuator output and its test-fire timer in remaining milliseconds (R45, R51, R63). -/
structure Outlet where
  schedule : List Window
  output : Bool
  testFire : Option Nat
deriving DecidableEq, Repr

/-- The state of a bank; every state but EMPTY carries the plan number (R83, Table 5-1). -/
inductive BankState where
  | empty
  | loading (plan : Byte)
  | committing (plan : Byte)
  | committed (plan : Byte)
deriving DecidableEq, Repr

/-- The state of a segment (R84). -/
inductive SegState where
  | blank
  | written
  | rewritten
deriving DecidableEq, Repr

/-- The bytes of a bank's entries in the encoding of R183, byte j of entry i at address 4 i + j: addresses strictly rising, no cell
0x00, since an unlisted address reads 0x00 (R86: every entry holds the all-zero encoding after reset). -/
abbrev Memory := List Host.Cell

/-- One bank (R83). -/
structure Bank where
  state : BankState
  mem : Memory
  segs : Vector SegState 64
deriving DecidableEq, Repr

/-- The bank check in flight: the bank and the expected CRC-16 held by the route store, and the COMMIT_PLAN's request number held
with the bank-check-in-flight flag by the request unit (R92). -/
structure BankCheck where
  bank : BankId
  expected : BitVec 16
  number : Byte
deriving DecidableEq, Repr

/-- The route store: both banks and the check in flight, if any (05). -/
structure RouteStore where
  a : Bank
  b : Bank
  check : Option BankCheck
deriving DecidableEq, Repr

/-- What a stray is routed by (R30, R175). -/
inductive StrayPolicy where
  | pass
  | outlet (k : OutletId)
deriving DecidableEq, Repr

/-- The fields of one OUTLET group (Table 10-3). -/
structure OutletConfig where
  fireOffset : Dist
  confirmMin : Dist
  confirmMax : Dist
  extraWidth : BitVec 16
deriving DecidableEq, Repr

/-- The configuration (R175, Table 10-3). A polarity is true for blocked-high, and the lane polarity for active-low (Table 11-7). -/
structure StationConfig where
  outletsPresent : Fin 5
  strayPolicy : StrayPolicy
  terminal : Bool
  tallyPasses : Bool
  entryFilter : BitVec 4
  exitFilter : BitVec 4
  confirmFilter : BitVec 4
  entryHigh : Bool
  exitHigh : Bool
  confirmHigh : PerOutlet Bool
  laneLow : Bool
  approachMin : Dist
  approachMax : Dist
  exitMin : Dist
  exitMax : Dist
  blockedLimit : Dist
  reversalTolerance : BitVec 16
  outlets : PerOutlet OutletConfig
  stallTime : BitVec 16
  noticeTimeout : Byte
  noticeRetries : BitVec 3
deriving DecidableEq, Repr

/-- The ten notice sources (Table 7-2). -/
inductive Source where
  | trackLost
  | divertFault
  | queueFull
  | scheduleFull
  | handoffOverflow
  | tallyOverflow
  | relayOverflow
  | linkChange
  | rxError
  | stall
deriving DecidableEq, Repr

/-- A notice source: its pending flag, its occurrence count and its mask (R120, R121). -/
structure SourceState where
  pending : Bool
  count : Byte
  masked : Bool
deriving DecidableEq, Repr

/-- A port set (R120): empty, or naming port U, port D or both. -/
structure PortSet where
  u : Bool
  d : Bool
deriving DecidableEq, Repr

/-- The states of the notice channel (Table 7-3). -/
inductive ChannelState where
  | idle
  | outstanding
  | quiet
deriving DecidableEq, Repr

/-- The outstanding notice: its sequence, source, captured count and built frame (07, section 7.3). -/
structure Notice where
  seq : Byte
  source : Source
  count : Byte
  frame : Frame
deriving DecidableEq, Repr

/-- A running ack timer: the value it was loaded with and its elapsed time, in milliseconds (R125). -/
structure AckTimer where
  loaded : Nat
  elapsed : Nat
deriving DecidableEq, Repr

/-- The notice channel with its notice slot (07, section 7.3); `sending` says that the outstanding notice's frame is being sent. -/
structure Channel where
  state : ChannelState
  seq : Byte
  outstanding : Option Notice
  retry : BitVec 3
  timer : Option AckTimer
  slot : Option Frame
  sending : Bool
deriving DecidableEq, Repr

/-- The five kinds of receive error (R146). -/
inductive RxKind where
  | crc
  | violation
  | truncated
  | oversize
  | misdirected
deriving DecidableEq, Repr

/-- The report unit (07). The counters stand in the order of Table 7-5. -/
structure ReportUnit where
  tallyQueue : List Frame
  tallySeq : Byte
  sources : Vector SourceState 10
  linkPorts : PortSet
  rxPorts : PortSet
  channel : Channel
  counters : Vector (BitVec 32) 33
deriving DecidableEq, Repr

/-- The framer of a port (R139). A DOWN port's framer holds no frame; it stands in DISCARD, in which the port comes UP (R136). -/
inductive Framer where
  | between
  | inFrame (bytes : List Byte)
  | discard
deriving DecidableEq, Repr

/-- The five error flags of a port (R147). -/
structure ErrorFlags where
  crc : Bool
  violation : Bool
  truncated : Bool
  oversize : Bool
  misdirected : Bool
deriving DecidableEq, Repr

/-- One link port's receive side (R136, R137, R139, R147). -/
structure LinkPort where
  up : Bool
  alignRun : Nat
  violationRun : Nat
  framer : Framer
  flags : ErrorFlags
deriving DecidableEq, Repr

/-- Where a frame being sent came from. -/
inductive TxSource where
  | reply
  | notice
  | upRelay
  | tally
  | downRelay
  | handoff
deriving DecidableEq, Repr

/-- A transmitter: silent while RESET is held, sending IDLE, or sending one frame, given by its symbols from SOF to EOF (R135). -/
inductive Transmitter where
  | silent
  | idle
  | sending (source : TxSource) (symbols : List Symbol)
deriving DecidableEq, Repr

/-- What the U turn names (R160). -/
inductive UTurn where
  | relay
  | tally
deriving DecidableEq, Repr

/-- What the D turn names (R161). -/
inductive DTurn where
  | relay
  | handoff
deriving DecidableEq, Repr

/-- The relay unit (09). -/
structure RelayUnit where
  address : BitVec 6
  downQueue : List Frame
  upQueue : List Frame
  handoffQueue : List Frame
  uTurn : UTurn
  dTurn : DTurn
  txU : Transmitter
  txD : Transmitter
deriving DecidableEq, Repr

/-- The request unit's reply slot and reply cache (R166, R168). -/
structure RequestUnit where
  slot : Option Frame
  cache : Option (Byte × Frame)
deriving DecidableEq, Repr

/-- The whole machine. `resetHeld` is the RESET pin, true while asserted (R82, R116); `pending` is the model's queue of waiting
commands. -/
structure State where
  resetHeld : Bool
  control : ModeControl
  links : PerPort LinkPort
  relay : RelayUnit
  request : RequestUnit
  config : StationConfig
  position : PositionUnit
  sensor : SensorUnit
  tracking : List ItemRecord
  route : RouteStore
  outlets : PerOutlet Outlet
  report : ReportUnit
  pending : List Instr
deriving DecidableEq, Repr

/-- Why a step could stop with a fault. No event of the spec stops the machine. -/
inductive Fault where
  /-- Raised by nothing: kept so that the type of faults has a name. Safe: no step answers it. -/
  | never
deriving DecidableEq, Repr

/-- Why a command could be refused. -/
inductive Refusal where
  /-- The command named has no meaning yet. Raised by no arm of this model. Safe: the machine stops. -/
  | notModelled (mnemonic : String)
deriving DecidableEq, Repr

/-- The configuration after power-on and after a pulse on RESET (R175, Table 10-3). -/
def StationConfig.powerOn : StationConfig where
  outletsPresent := 0
  strayPolicy := .pass
  terminal := false
  tallyPasses := false
  entryFilter := 2
  exitFilter := 2
  confirmFilter := 2
  entryHigh := false
  exitHigh := false
  confirmHigh := PerOutlet.all false
  laneLow := false
  approachMin := 0
  approachMax := 0
  exitMin := 0
  exitMax := 0
  blockedLimit := 4096
  reversalTolerance := 64
  outlets := PerOutlet.all ⟨0, 0, 0, 0⟩
  stallTime := 0
  noticeTimeout := 20
  noticeRetries := 3

/-- An EMPTY bank: every entry all-zero, every segment BLANK (R83, R86). -/
def Bank.cleared : Bank := ⟨.empty, [], Vector.replicate 64 .blank⟩

/-- A port after a cold reset: DOWN, runs 0, no frame, flags clear (R148). -/
def LinkPort.cold : LinkPort := ⟨false, 0, 0, .discard, ⟨false, false, false, false, false⟩⟩

/-- The notice channel after a reset: IDLE, sequence 0, nothing held (R130). -/
def Channel.cold : Channel := ⟨.idle, 0, none, 0, none, none, false⟩

/-- The sources after a cold reset: nothing pending, the nine maskable ones masked, TRACK_LOST not (R120, R121). -/
def coldSources : Vector SourceState 10 :=
  (Vector.replicate 10 (⟨false, 0, true⟩ : SourceState)).set 0 ⟨false, 0, false⟩

/-- The report unit after a cold reset (R117, R118, R120, R121, R130, R132). -/
def ReportUnit.cold : ReportUnit where
  tallyQueue := []
  tallySeq := 0
  sources := coldSources
  linkPorts := ⟨false, false⟩
  rxPorts := ⟨false, false⟩
  channel := Channel.cold
  counters := Vector.replicate 33 0

/-- The relay unit after a cold reset, both transmitters sending IDLE (R163, R135). -/
def RelayUnit.cold : RelayUnit := ⟨0, [], [], [], .relay, .relay, .idle, .idle⟩

/-- The sensor unit after power-on with every eye pin high (clear under blocked-low) and every lane pin low (not full under
active-high). DESIGN CHOICE (notes/assumptions/3.md): the pin levels are inputs and the spec gives them no value; the
blocked-since position of a clear eye is 0 by the choice of notes/assumptions/19.md. -/
def SensorUnit.quiet : SensorUnit where
  entry := ⟨true, false, none⟩
  exit := ⟨true, false, none⟩
  confirm := PerOutlet.all ⟨true, false, none⟩
  entrySince := 0
  exitSince := 0
  lanes := PerOutlet.all ⟨false, false⟩

/-- The machine right after a power-on (R116, Table 6-3), with the pin levels of notes/assumptions/3.md and no command waiting. -/
def State.reset : State where
  resetHeld := false
  control := ⟨.transparent, .none, false⟩
  links := ⟨LinkPort.cold, LinkPort.cold⟩
  relay := RelayUnit.cold
  request := ⟨none, none⟩
  config := StationConfig.powerOn
  position := ⟨false, false, 0, 0, .none, none⟩
  sensor := SensorUnit.quiet
  tracking := []
  route := ⟨Bank.cleared, Bank.cleared, none⟩
  outlets := PerOutlet.all ⟨[], false, none⟩
  report := ReportUnit.cold
  pending := []

end Sys2Proof.Machine
end

