-- ==== Sys2Proof/Machine/Operands.lean ====
section
/-! DEFINITION. Machine/Operands.lean: every byte layout of chapter 11: the codes, the CRC-16, the frames the station builds and
the ITEMs, route entries and configuration groups it reads. -/

namespace Sys2Proof.Machine

/-! ## Bytes -/

/-- A byte of the value `n` (used where `n` is known to fit). -/
def byteOf (n : Nat) : Byte := BitVec.ofNat 8 n

/-- Two bytes, most significant first (00_scope.md "Byte order"). -/
def be16 (w : BitVec 16) : List Byte := [w.extractLsb' 8 8, w.extractLsb' 0 8]

/-- Three bytes, most significant first. -/
def be24 (w : BitVec 24) : List Byte := [w.extractLsb' 16 8, w.extractLsb' 8 8, w.extractLsb' 0 8]

/-- Four bytes, most significant first. -/
def be32 (w : BitVec 32) : List Byte :=
  [w.extractLsb' 24 8, w.extractLsb' 16 8, w.extractLsb' 8 8, w.extractLsb' 0 8]

/-- The 16-bit value of two bytes, the most significant first. -/
def of16 (h l : Byte) : BitVec 16 := h ++ l

/-- The 24-bit value of three bytes, the most significant first. -/
def of24 (h m l : Byte) : BitVec 24 := h ++ m ++ l

/-- A bit as the value 0 or 1. -/
def bit (b : Bool) : Nat := if b then 1 else 0

/-! ## The CRC-16 (R93, R141): polynomial x^16+x^12+x^5+1, initial value all ones, most significant bit first, no final inversion -/

/-- The remainder after one more bit. -/
def crcBit (c : BitVec 16) (b : Bool) : BitVec 16 :=
  if c.msb != b then (c <<< 1) ^^^ 0x1021#16 else c <<< 1

/-- The remainder after one more byte, most significant bit first. -/
def crcByte (c : BitVec 16) (b : Byte) : BitVec 16 :=
  [7, 6, 5, 4, 3, 2, 1, 0].foldl (fun c i => crcBit c (b.getLsbD i)) c

/-- The CRC-16 of a string of bytes. -/
def crc16 (bytes : List Byte) : BitVec 16 := bytes.foldl crcByte 0xFFFF#16

/-! ## Frames on the wire (Table 11-1, R135) -/

/-- The bytes the CRC-16 of a frame covers: kind, address, length and payload (R141). -/
def frameBytes (f : Frame) : List Byte := f.kind :: f.addr :: byteOf f.payload.length :: f.payload

/-- The symbols the transmitter sends for a frame: SOF, the bytes, the CRC-16 most significant byte first, EOF (R135). -/
def frameSymbols (f : Frame) : List Symbol :=
  .sof :: ((frameBytes f ++ be16 (crc16 (frameBytes f))).map .data ++ [.eof])

/-- A frame kind travels upstream when its high bit is set (R144). -/
def kindUpstream (kind : Byte) : Bool := kind.msb

/-- Whether a kind's direction class agrees with the port that received it (R144). -/
def kindFits (p : Port) (kind : Byte) : Bool :=
  match p with
  | .u => !kindUpstream kind
  | .d => kindUpstream kind

/-- ITEM (Table 8-3). -/
def kindItem : Byte := 0x01
/-- REQUEST (Table 8-3). -/
def kindRequest : Byte := 0x02
/-- ENUMERATE (Table 8-3). -/
def kindEnumerate : Byte := 0x03
/-- REPLY (Table 8-3). -/
def kindReply : Byte := 0x81
/-- TALLY (Table 8-3). -/
def kindTally : Byte := 0x82
/-- NOTICE (Table 8-3). -/
def kindNotice : Byte := 0x83

/-! ## Codes (Table 11-2) -/

def outcomeCode : OutcomeKind → Nat
  | .diverted => 1
  | .divertMissed => 2
  | .divertUnconfirmed => 3
  | .passed => 4
  | .passVanished => 5
  | .lost => 6
  | .abandoned => 7
  | .endOfLine => 8
  | .handoffDropped => 9
  | .admitRefused => 10

def reasonCode : Reason → Nat
  | .laneFull => 1
  | .late => 2
  | .schedFull => 3
  | .noPlan => 4
  | .noRoute => 5
  | .noOutlet => 6
  | .overlength => 7
  | .outOfService => 8
  | .divertMissed => 9
  | .passed => 10

/-- The reason byte of a tally or a snapshot: 0 for none. -/
def reasonByte : Option Reason → Nat
  | none => 0
  | some r => reasonCode r

/-- The reason of a trail note's code, 1..9; any other code refuses the ITEM (R178). -/
def noteReason (code : Byte) : Option Reason :=
  match code.toNat with
  | 1 => some .laneFull
  | 2 => some .late
  | 3 => some .schedFull
  | 4 => some .noPlan
  | 5 => some .noRoute
  | 6 => some .noOutlet
  | 7 => some .overlength
  | 8 => some .outOfService
  | 9 => some .divertMissed
  | _ => none

def modeCode : Mode → Nat
  | .transparent => 0
  | .ready => 1
  | .tracking => 2
  | .trackLost => 3

def causeCode : Cause → Nat
  | .none => 0
  | .reversal => 1
  | .entryBlocked => 2
  | .exitBlocked => 3

def bankStateCode : BankState → Nat
  | .empty => 0
  | .loading _ => 1
  | .committing _ => 2
  | .committed _ => 3

def segStateCode : SegState → Nat
  | .blank => 0
  | .written => 1
  | .rewritten => 2

def channelCode : ChannelState → Nat
  | .idle => 0
  | .outstanding => 1
  | .quiet => 2

/-- A port set byte: bit 0 port U, bit 1 port D (section 11.1); in a reply the other bits 0 (notes/assumptions/21.md). -/
def portSetByte (p : PortSet) : Byte := byteOf (bit p.u + 2 * bit p.d)

/-- The notice sources in priority order (Table 7-2). -/
def allSources : List Source :=
  [.trackLost, .divertFault, .queueFull, .scheduleFull, .handoffOverflow, .tallyOverflow, .relayOverflow, .linkChange, .rxError, .stall]

/-- A source's priority, 0 the highest, which is also its code (Table 7-2, section 11.1). -/
def sourceIndex : Source → Fin 10
  | .trackLost => 0
  | .divertFault => 1
  | .queueFull => 2
  | .scheduleFull => 3
  | .handoffOverflow => 4
  | .tallyOverflow => 5
  | .relayOverflow => 6
  | .linkChange => 7
  | .rxError => 8
  | .stall => 9

/-- A bank byte of a request's arguments: 0 bank A, 1 bank B (section 11.1). -/
def bankOfByte (b : Byte) : Option BankId :=
  if b = 0 then some .a else if b = 1 then some .b else none

/-- An outlet byte 0..3. -/
def outletOfNat (n : Nat) : Option OutletId := if h : n < 4 then some ⟨n, h⟩ else none

/-! ## Counters (Table 7-5) -/

/-- The counters of Table 7-5. -/
inductive Counter where
  | outcome (o : OutcomeKind)
  | confirmedDivert (k : OutletId)
  | straysCreated
  | straysDropped
  | confirmStrays
  | exitStrays
  | rxError (p : Port) (e : RxKind)
  | relayDrops
  | undeliverable
  | talliesLost
  | broadcastsIgnored
  | enumerationsDropped
deriving DecidableEq, Repr

/-- A counter's index (Table 7-5). -/
def counterIndex : Counter → Fin 33
  | .outcome .diverted => 0
  | .outcome .divertMissed => 1
  | .outcome .divertUnconfirmed => 2
  | .outcome .passed => 3
  | .outcome .passVanished => 4
  | .outcome .lost => 5
  | .outcome .abandoned => 6
  | .outcome .endOfLine => 7
  | .outcome .handoffDropped => 8
  | .outcome .admitRefused => 9
  | .confirmedDivert 0 => 10
  | .confirmedDivert 1 => 11
  | .confirmedDivert 2 => 12
  | .confirmedDivert 3 => 13
  | .straysCreated => 14
  | .straysDropped => 15
  | .confirmStrays => 16
  | .exitStrays => 17
  | .rxError .u .crc => 18
  | .rxError .u .violation => 19
  | .rxError .u .truncated => 20
  | .rxError .u .oversize => 21
  | .rxError .u .misdirected => 22
  | .rxError .d .crc => 23
  | .rxError .d .violation => 24
  | .rxError .d .truncated => 25
  | .rxError .d .oversize => 26
  | .rxError .d .misdirected => 27
  | .relayDrops => 28
  | .undeliverable => 29
  | .talliesLost => 30
  | .broadcastsIgnored => 31
  | .enumerationsDropped => 32

/-! ## ITEM (Table 11-3, R178) -/

/-- The fields of an ITEM as taken, or as built. -/
structure ItemFields where
  tag : BitVec 16
  dest : Option (BitVec 12)
  plan : Byte
  flags : Flags
  hop : Byte
  len : BitVec 16
  lenPresent : Bool
  trail : List Note
deriving DecidableEq, Repr

/-- The notes of an ITEM's payload; none if one has an address of 0 or over 62, or a reason of 0 or over 9 (R178). -/
def parseNotes : List Byte → Option (List Note)
  | [] => some []
  | [_] => none
  | a :: r :: rest =>
    if a.toNat = 0 ∨ Config.maxAddress < a.toNat then none
    else
      match noteReason r, parseNotes rest with
      | some reason, some notes => some (⟨a.setWidth 6, reason⟩ :: notes)
      | _, _ => none

/-- An ITEM payload checked and read (R178): none for a refused ITEM. With the STRAY flag the tag and plan number are taken as 0 and
the destination as absent. -/
def parseItem (payload : List Byte) : Option ItemFields :=
  match payload with
  | t1 :: t0 :: d1 :: d0 :: plan :: fl :: hop :: l1 :: l0 :: k :: rest =>
    if Config.trailCapacity < k.toNat ∨ rest.length ≠ 2 * k.toNat then none
    else
      match parseNotes rest with
      | none => none
      | some notes =>
        let stray := fl.getLsbD 0
        if !d1.msb && !stray then none
        else
          some
            { tag := if stray then 0 else of16 t1 t0
              dest := if stray then none else some ((of16 d1 d0).setWidth 12)
              plan := if stray then 0 else plan
              flags := ⟨stray, fl.getLsbD 1, fl.getLsbD 2, fl.getLsbD 3⟩
              hop := hop
              len := of16 l1 l0
              lenPresent := fl.msb
              trail := notes }
  | _ => none

/-- Bytes 2-3 of an ITEM and 4-5 of a TALLY: bit 15 destination present, bits 11-0 the code, 0 when absent. -/
def destBytes (dest : Option (BitVec 12)) : List Byte :=
  match dest with
  | none => [0, 0]
  | some d => be16 (0x8000#16 ||| d.setWidth 16)

/-- The flags byte of an ITEM (Table 11-3). -/
def itemFlagsByte (f : Flags) (lenPresent : Bool) : Byte :=
  byteOf (bit f.stray + 2 * bit f.adopted + 4 * bit f.forcePass + 8 * bit f.trailFull + 128 * bit lenPresent)

/-- The notes of a trail, oldest first, two bytes each. -/
def noteBytes (trail : List Note) : List Byte :=
  trail.flatMap (fun n => [n.addr.setWidth 8, byteOf (reasonCode n.reason)])

/-- The ITEM frame of the fields given, address byte 0 (R61, R178). -/
def itemFrame (i : ItemFields) : Frame :=
  { kind := kindItem
    addr := 0
    payload := be16 i.tag ++ destBytes i.dest ++ [i.plan, itemFlagsByte i.flags i.lenPresent, i.hop] ++ be16 i.len
      ++ [byteOf i.trail.length] ++ noteBytes i.trail }

/-! ## TALLY and NOTICE (Table 11-9, R182) -/

/-- The contents of a tally but for its address and sequence (Table 7-1). -/
structure Tally where
  outcome : OutcomeKind
  tag : BitVec 16
  dest : Option (BitVec 12)
  outlet : Option OutletId
  reason : Option Reason
  position : Pos
  len : Option (BitVec 16)
deriving DecidableEq, Repr

/-- The address byte that names a station. -/
def addressByte (address : BitVec 6) : Byte := address.setWidth 8

/-- A TALLY frame (Table 11-9): absent fields 0, an absent outlet 0xFF. -/
def tallyFrame (address : BitVec 6) (seq : Byte) (t : Tally) : Frame :=
  { kind := kindTally
    addr := addressByte address
    payload := [seq, byteOf (outcomeCode t.outcome)] ++ be16 t.tag ++ destBytes t.dest
      ++ [(match t.outlet with | none => 0xFF#8 | some k => byteOf k.val), byteOf (reasonByte t.reason)]
      ++ be32 t.position ++ be16 (t.len.getD 0) ++ [byteOf (bit t.len.isSome)] }

/-- A NOTICE frame (Table 11-9, R124). -/
def noticeFrame (address : BitVec 6) (seq : Byte) (source : Source) (count : Byte) (mode : Mode) (depth : Nat) (pos : Pos)
    (detail : Byte) : Frame :=
  { kind := kindNotice
    addr := addressByte address
    payload := [seq, byteOf (sourceIndex source).val, count, byteOf (modeCode mode), byteOf depth] ++ be32 pos ++ [detail] }

/-! ## REQUEST and REPLY (Tables 11-4 to 11-6) -/

/-- The reply statuses (R164). -/
inductive Status where
  | done
  | busy
  | mode
  | inUse
  | bankState
  | badArg
  | badConfig
  | checksum
  | dupPlan
  | stale
  | unknown
deriving DecidableEq, Repr

/-- The status codes (R180). -/
def statusCode : Status → Byte
  | .done => 0x00
  | .busy => 0x01
  | .mode => 0x02
  | .inUse => 0x03
  | .bankState => 0x04
  | .badArg => 0x05
  | .badConfig => 0x06
  | .checksum => 0x07
  | .dupPlan => 0x08
  | .stale => 0x09
  | .unknown => 0x0A

/-- The fourteen request codes (Table 10-1). -/
inductive RequestCode where
  | readObject
  | writeConfig
  | readCounters
  | openPlan
  | writeSegment
  | commitPlan
  | dropPlan
  | startTracking
  | stopTracking
  | recover
  | restart
  | ackNotice
  | setNoticeMask
  | fireTest
deriving DecidableEq, Repr

/-- The byte of a request code (Table 11-4). -/
def requestByte : RequestCode → Byte
  | .readObject => 0x01
  | .writeConfig => 0x02
  | .readCounters => 0x03
  | .openPlan => 0x10
  | .writeSegment => 0x11
  | .commitPlan => 0x12
  | .dropPlan => 0x13
  | .startTracking => 0x20
  | .stopTracking => 0x21
  | .recover => 0x22
  | .restart => 0x23
  | .ackNotice => 0x30
  | .setNoticeMask => 0x31
  | .fireTest => 0x40

/-- The request code of a byte; none for a byte that is not one of the fourteen (R165, test 4). -/
def requestOfByte (b : Byte) : Option RequestCode :=
  match b.toNat with
  | 0x01 => some .readObject
  | 0x02 => some .writeConfig
  | 0x03 => some .readCounters
  | 0x10 => some .openPlan
  | 0x11 => some .writeSegment
  | 0x12 => some .commitPlan
  | 0x13 => some .dropPlan
  | 0x20 => some .startTracking
  | 0x21 => some .stopTracking
  | 0x22 => some .recover
  | 0x23 => some .restart
  | 0x30 => some .ackNotice
  | 0x31 => some .setNoticeMask
  | 0x40 => some .fireTest
  | _ => none

/-- The number of argument bytes a code takes; none for WRITE_CONFIG, whose rule tests its own length (R165 test 5, Table 11-4). -/
def argumentLength : RequestCode → Option Nat
  | .readObject => some 4
  | .writeConfig => none
  | .readCounters => some 3
  | .openPlan => some 2
  | .writeSegment => some 66
  | .commitPlan => some 3
  | .dropPlan => some 1
  | .startTracking => some 0
  | .stopTracking => some 0
  | .recover => some 0
  | .restart => some 0
  | .ackNotice => some 1
  | .setNoticeMask => some 2
  | .fireTest => some 3

/-- The REQUEST frame of an address byte, request number, request code and argument bytes (R164, R179). -/
def requestFrame (addr num code : Byte) (args : List Byte) : Frame := ⟨kindRequest, addr, num :: code :: args⟩

/-- The REPLY frame of a station address, the request's number and code, a status and data (R164, R180). -/
def replyFrame (address : BitVec 6) (num code : Byte) (status : Status) (data : List Byte) : Frame :=
  ⟨kindReply, addressByte address, num :: code :: statusCode status :: data⟩

/-! ## Route entries (Table 11-10, R183) -/

/-- A route entry (R34). -/
structure RouteEntry where
  divert : Bool
  primary : OutletId
  alternate : Option OutletId
  maxLength : BitVec 16
deriving DecidableEq, Repr

/-- Whether four bytes are a well-formed route entry (R90, R183): disposition 0 or 1, primary 0..3, alternate 0..3 or 15. -/
def entryWellFormed (b0 b1 : Byte) : Bool :=
  decide (b0.toNat ≤ 1) && decide (b1.toNat / 16 ≤ 3) && (decide (b1.toNat % 16 ≤ 3) || decide (b1.toNat % 16 = 15))

/-- The entry of four bytes (R183). A bank holds well-formed entries only (R90); of other codes the low bits are read
(notes/assumptions/8.md). -/
def entryOfBytes (b0 b1 b2 b3 : Byte) : RouteEntry :=
  { divert := b0 = 1
    primary := ⟨b1.toNat / 16 % 4, Nat.mod_lt _ (by decide)⟩
    alternate := outletOfNat (b1.toNat % 16)
    maxLength := of16 b2 b3 }

/-- Whether every four bytes of a list are a well-formed entry. -/
def entriesWellFormed : List Byte → Bool
  | b0 :: b1 :: _ :: _ :: rest => entryWellFormed b0 b1 && entriesWellFormed rest
  | [] => true
  | _ => false

/-! ## Configuration groups (Tables 10-3 and 11-7, R174, R184) -/

/-- The number of value bytes of a group; none for a number that names no group (Table 11-7). -/
def groupLength (g : Byte) : Option Nat :=
  match g.toNat with
  | 0 => some 4
  | 1 => some 4
  | 2 => some 17
  | 3 => some 11
  | 4 => some 11
  | 5 => some 11
  | 6 => some 11
  | 7 => some 4
  | _ => none

/-- The stray policy of its byte: 0x00 PASS, 0x10..0x13 OUTLET 0..3 (R184). -/
def strayPolicyOfByte (b : Byte) : Option StrayPolicy :=
  match b.toNat with
  | 0x00 => some .pass
  | 0x10 => some (.outlet 0)
  | 0x11 => some (.outlet 1)
  | 0x12 => some (.outlet 2)
  | 0x13 => some (.outlet 3)
  | _ => none

/-- The byte of a stray policy. -/
def strayPolicyByte : StrayPolicy → Byte
  | .pass => 0
  | .outlet k => byteOf (16 + k.val)

/-- The position of the first field out of range, counting from 0 (R174). -/
def firstOutOfRange (inRange : List Bool) : Option Nat := inRange.findIdx? (fun b => !b)

/-- The new configuration, or the position of the first field out of range, of a group's value bytes; the bytes are as many as the
group takes (R174, R184). Confirm eye k's polarity is bit 2 + k of the polarity byte (notes/assumptions/7.md). -/
def writeGroup (g : Byte) (vals : List Byte) (c : StationConfig) : Nat ⊕ StationConfig :=
  match g.toNat, vals with
  | 0, [op, sp, te, tp] =>
    match firstOutOfRange
        [decide (op.toNat < 5), (strayPolicyOfByte sp).isSome, decide (te.toNat ≤ 1), decide (tp.toNat ≤ 1)] with
    | some i => .inl i
    | none =>
      .inr
        { c with
          outletsPresent := ⟨op.toNat % 5, Nat.mod_lt _ (by decide)⟩
          strayPolicy := (strayPolicyOfByte sp).getD .pass
          terminal := te = 1
          tallyPasses := tp = 1 }
  | 1, [ef, xf, cf, pol] =>
    match firstOutOfRange [decide (ef.toNat ≤ 15), decide (xf.toNat ≤ 15), decide (cf.toNat ≤ 15)] with
    | some i => .inl i
    | none =>
      .inr
        { c with
          entryFilter := ef.setWidth 4
          exitFilter := xf.setWidth 4
          confirmFilter := cf.setWidth 4
          entryHigh := pol.getLsbD 0
          exitHigh := pol.getLsbD 1
          confirmHigh := ⟨pol.getLsbD 2, pol.getLsbD 3, pol.getLsbD 4, pol.getLsbD 5⟩
          laneLow := pol.getLsbD 6 }
  | 2, [a2, a1, a0, b2, b1, b0, c2, c1, c0, d2, d1, d0, e2, e1, e0, r1, r0] =>
    match firstOutOfRange [true, true, true, true, decide (of24 e2 e1 e0 ≠ 0), true] with
    | some i => .inl i
    | none =>
      .inr
        { c with
          approachMin := of24 a2 a1 a0
          approachMax := of24 b2 b1 b0
          exitMin := of24 c2 c1 c0
          exitMax := of24 d2 d1 d0
          blockedLimit := of24 e2 e1 e0
          reversalTolerance := of16 r1 r0 }
  | 7, [s1, s0, nt, nr] =>
    match firstOutOfRange [true, decide (nt ≠ 0), decide (nr.toNat ≤ 7)] with
    | some i => .inl i
    | none => .inr { c with stallTime := of16 s1 s0, noticeTimeout := nt, noticeRetries := nr.setWidth 3 }
  | n, [f2, f1, f0, l2, l1, l0, m2, m1, m0, w1, w0] =>
    .inr
      { c with
        outlets :=
          c.outlets.set ⟨(n + 1) % 4, Nat.mod_lt _ (by decide)⟩
            ⟨of24 f2 f1 f0, of24 l2 l1 l0, of24 m2 m1 m0, of16 w1 w0⟩ }
  | _, _ => .inr c

/-- The polarity byte of the EYES group (Table 11-7), confirm eye k at bit 2 + k (notes/assumptions/7.md). -/
def polarityByte (c : StationConfig) : Byte :=
  byteOf (bit c.entryHigh + 2 * bit c.exitHigh + 4 * bit c.confirmHigh.o0 + 8 * bit c.confirmHigh.o1
    + 16 * bit c.confirmHigh.o2 + 32 * bit c.confirmHigh.o3 + 64 * bit c.laneLow)

/-- The value bytes of an OUTLET group. -/
def outletGroupBytes (o : OutletConfig) : List Byte :=
  be24 o.fireOffset ++ be24 o.confirmMin ++ be24 o.confirmMax ++ be16 o.extraWidth

/-- The eight groups in group order, 73 bytes (Table 11-6, CONFIG). -/
def configBytes (c : StationConfig) : List Byte :=
  [byteOf c.outletsPresent.val, strayPolicyByte c.strayPolicy, byteOf (bit c.terminal), byteOf (bit c.tallyPasses)]
  ++ [c.entryFilter.setWidth 8, c.exitFilter.setWidth 8, c.confirmFilter.setWidth 8, polarityByte c]
  ++ be24 c.approachMin ++ be24 c.approachMax ++ be24 c.exitMin ++ be24 c.exitMax ++ be24 c.blockedLimit
  ++ be16 c.reversalTolerance
  ++ outletIds.flatMap (fun k => outletGroupBytes (c.outlets.get k))
  ++ be16 c.stallTime ++ [c.noticeTimeout, c.noticeRetries.setWidth 8]

/-! ## Snapshot records (Table 11-8, R181) -/

/-- The fields of a record's stage as the snapshot gives them: the state code, P, L, and the outlet or pass reason with its presence. -/
structure StageFields where
  code : Nat
  p : Option Pos
  len : Option (BitVec 16)
  mark : Option Nat
deriving DecidableEq, Repr

def stageFields : Stage → StageFields
  | .expected => ⟨0, none, none, none⟩
  | .onEye p => ⟨1, some p, none, none⟩
  | .boundOut p l k _ => ⟨2, some p, some l, some k.val⟩
  | .boundThrough p l r => ⟨3, some p, some l, r.map reasonCode⟩

/-- A note in ten bits: the 6-bit station address, then the 4-bit reason code. -/
def noteBits (n : Note) : Nat := n.addr.toNat * 16 + reasonCode n.reason

/-- The six note places, oldest highest, absent ones 0. -/
def trailBits (trail : List Note) : Nat :=
  (List.range Config.trailCapacity).foldl
    (fun acc i => acc * 1024 + (match trail[i]? with | some n => noteBits n | none => 0)) 0

/-- Bytes 13-14: the outlet or pass reason code, then the destination code, 0 when absent. -/
def snapshotMarkBytes (r : ItemRecord) : List Byte :=
  be16 (BitVec.ofNat 16 ((stageFields r.stage).mark.getD 0 * 4096 + (r.dest.map BitVec.toNat).getD 0))

/-- The 24 bytes of a snapshot record (Table 11-8). -/
def snapshotBytes (r : ItemRecord) : List Byte :=
  let st := stageFields r.stage
  be16 r.tag ++ [r.plan, r.hop] ++ be32 r.arrival
  ++ be24 (match st.p with | some p => (p - r.arrival).setWidth 24 | none => 0)
  ++ be16 (st.len.getD 0)
  ++ snapshotMarkBytes r
  ++ [byteOf (64 * st.code + 32 * bit r.flags.stray + 16 * bit r.flags.adopted + 8 * bit r.flags.forcePass
        + 4 * bit r.flags.trailFull + 2 * bit st.p.isSome + bit st.len.isSome)]
  ++ (let w := BitVec.ofNat 64 (bit st.mark.isSome * 2 ^ 63 + r.trail.length * 2 ^ 60 + trailBits r.trail)
      be32 (w.extractLsb' 32 32) ++ be32 (w.extractLsb' 0 32))

end Sys2Proof.Machine
end

