-- ==== Sys2Proof/Machine/Flags.lean ====
section
/-! DEFINITION. Machine/Flags.lean: every condition the spec computes from the state and does not store: the comparison of
positions, the windows of a record, levels under a polarity, the reference count, what drives an actuator, the consistency of the
configuration. -/

namespace Sys2Proof.Machine

/-! ## Positions and windows (00_scope.md "Positions", "Windows") -/

/-- `x` is at or past `y`: (x - y) modulo 2^32 is less than 2^31. -/
def atOrPast (x y : Pos) : Bool := decide ((x - y).toNat < 2 ^ 31)

/-- `x` lies in [open, close). -/
def windowContains (w : Window) (x : Pos) : Bool := atOrPast x w.opens && !atOrPast x w.closes

/-- A position a distance past another. -/
def past (p : Pos) (d : Dist) : Pos := p + d.setWidth 32

/-- The approach window of a record (R12). -/
def approachWindow (c : StationConfig) (r : ItemRecord) : Window := ⟨past r.arrival c.approachMin, past r.arrival c.approachMax⟩

/-- The confirm window of a BOUND_OUT record with entry position `p` on outlet `k` (R53). -/
def confirmWindow (c : StationConfig) (p : Pos) (k : OutletId) : Window :=
  ⟨past p (c.outlets.get k).confirmMin, past p (c.outlets.get k).confirmMax⟩

/-- The exit window of a resolved record with entry position `p` (R57). -/
def exitWindow (c : StationConfig) (p : Pos) : Window := ⟨past p c.exitMin, past p c.exitMax⟩

/-! ## Records -/

/-- The record is EXPECTED. -/
def isExpected (r : ItemRecord) : Bool :=
  match r.stage with
  | .expected => true
  | _ => false

/-- The record is ON_EYE. -/
def isOnEye (r : ItemRecord) : Bool :=
  match r.stage with
  | .onEye _ => true
  | _ => false

/-- The measured length of a resolved record (R1). -/
def measuredLength (r : ItemRecord) : Option (BitVec 16) :=
  match r.stage with
  | .expected => none
  | .onEye _ => none
  | .boundOut _ l _ _ => some l
  | .boundThrough _ l _ => some l

/-- The outlet of a BOUND_OUT record (R1). -/
def boundOutlet (r : ItemRecord) : Option OutletId :=
  match r.stage with
  | .boundOut _ _ k _ => some k
  | _ => none

/-- The pass reason of a BOUND_THROUGH record, if it holds one (R1). -/
def passReason (r : ItemRecord) : Option Reason :=
  match r.stage with
  | .boundThrough _ _ reason => reason
  | _ => none

/-- A confirm edge of outlet `k` stamped `x` matches the record (R54). -/
def confirmMatches (c : StationConfig) (k : OutletId) (x : Pos) (r : ItemRecord) : Bool :=
  match r.stage with
  | .boundOut p _ o _ => decide (o = k) && windowContains (confirmWindow c p o) x
  | _ => false

/-- An exit edge stamped `x` matches the record (R58). -/
def exitMatches (c : StationConfig) (x : Pos) (r : ItemRecord) : Bool :=
  match r.stage with
  | .boundOut p _ _ _ => windowContains (exitWindow c p) x
  | .boundThrough p _ _ => windowContains (exitWindow c p) x
  | _ => false

/-- The approach window of the EXPECTED record closes at `x` (R19). -/
def approachClosesAt (c : StationConfig) (x : Pos) (r : ItemRecord) : Bool :=
  isExpected r && decide ((approachWindow c r).closes = x)

/-- The confirm close of the BOUND_OUT record at `x` removes it: its exit window has closed there or before (R53, R60). A close that
lay behind the belt at resolution counts as closed; DESIGN CHOICE (notes/assumptions/16.md). -/
def confirmCloseRemoves (c : StationConfig) (x : Pos) (r : ItemRecord) : Bool :=
  match r.stage with
  | .boundOut p _ o _ => decide ((confirmWindow c p o).closes = x) && atOrPast x (exitWindow c p).closes
  | _ => false

/-- The exit close of the record at `x` removes it: a BOUND_THROUGH record, or a BOUND_OUT record whose confirm window has closed
there or before (R59, R60). A record resolved when its exit close already lay behind the belt stays until a forward count brings the
belt to that position; DESIGN CHOICE (notes/assumptions/16.md). -/
def exitCloseRemoves (c : StationConfig) (x : Pos) (r : ItemRecord) : Bool :=
  match r.stage with
  | .boundOut p _ o _ => decide ((exitWindow c p).closes = x) && atOrPast x (confirmWindow c p o).closes
  | .boundThrough p _ _ => decide ((exitWindow c p).closes = x)
  | _ => false

/-- The outcome a close gives a resolved record: PASS_VANISHED for BOUND_THROUGH, DIVERT_UNCONFIRMED for BOUND_OUT (R59, R60). -/
def closeOutcome (r : ItemRecord) : OutcomeKind :=
  match r.stage with
  | .boundOut _ _ _ _ => .divertUnconfirmed
  | _ => .passVanished

/-- Whether an outcome's tally carries the outlet of a BOUND_OUT record (R23). -/
def carriesOutlet : OutcomeKind → Bool
  | .diverted => true
  | .divertMissed => true
  | .divertUnconfirmed => true
  | .abandoned => true
  | .handoffDropped => true
  | _ => false

/-- The reason of a record's tally (R23): the pass reason, the outcome that would have been for HANDOFF_DROPPED, DIVERT_MISSED for
DIVERT_MISSED, and none for the others. -/
def tallyReason (o : OutcomeKind) (r : ItemRecord) : Option Reason :=
  match o with
  | .passed => passReason r
  | .passVanished => passReason r
  | .endOfLine => passReason r
  | .abandoned => passReason r
  | .handoffDropped => some (if (boundOutlet r).isSome then .divertMissed else .passed)
  | .divertMissed => some .divertMissed
  | _ => none

/-- The tally of a removal (R23), with the position at outcome of R24. -/
def recordTally (o : OutcomeKind) (r : ItemRecord) (at_ : Pos) : Tally :=
  { outcome := o
    tag := r.tag
    dest := r.dest
    outlet := if carriesOutlet o then boundOutlet r else none
    reason := tallyReason o r
    position := at_
    len := measuredLength r }

/-- The tally offered from an ITEM frame with no record (R11, R13). -/
def itemTally (o : OutcomeKind) (i : ItemFields) (reason : Option Reason) (at_ : Pos) : Tally :=
  { outcome := o, tag := i.tag, dest := i.dest, outlet := none, reason := reason, position := at_, len := none }

/-- A note appended to a trail, or discarded with TRAIL_FULL set when the trail holds six notes (R4). -/
def addNote (n : Note) (trail : List Note) (flags : Flags) : List Note × Flags :=
  if trail.length < Config.trailCapacity then (trail ++ [n], flags) else (trail, { flags with trailFull := true })

/-- The hop count of a record handed on: one more, 255 staying 255 (R3). -/
def nextHop (hop : Byte) : Byte := if hop = 255 then 255 else hop + 1

/-! ## Levels under a polarity -/

/-- An eye's polarity: true for blocked-high (R73). -/
def eyeHigh (c : StationConfig) : EyeId → Bool
  | .entry => c.entryHigh
  | .exit => c.exitHigh
  | .confirm k => c.confirmHigh.get k

/-- An eye's filter length (R73). -/
def eyeFilter (c : StationConfig) : EyeId → Nat
  | .entry => c.entryFilter.toNat
  | .exit => c.exitFilter.toNat
  | .confirm _ => c.confirmFilter.toNat

/-- The level of an eye's pin under a polarity: true for blocked (R73). -/
def eyeLevel (blockedHigh pin : Bool) : Bool := pin == blockedHigh

/-- The level of a lane-full pin under the lane_full polarity: true for full (R80). -/
def laneLevel (activeLow pin : Bool) : Bool := pin != activeLow

/-! ## Outlets -/

/-- An outlet is present when its number is less than outlets_present (R36). -/
def outletPresent (c : StationConfig) (k : OutletId) : Bool := decide (k.val < c.outletsPresent.val)

/-- The outlet is usable: present and not full (R37). -/
def outletUsable (s : State) (k : OutletId) : Bool := outletPresent s.config k && !(s.sensor.lanes.get k).full

/-- The actuator output of an outlet is driven (R51): in TRACKING while the position lies in a window of its schedule, in READY while
its test fire runs. -/
def outputDriven (s : State) (k : OutletId) : Bool :=
  match s.control.mode with
  | .tracking => (s.outlets.get k).schedule.any (fun w => windowContains w s.position.pos)
  | .ready => (s.outlets.get k).testFire.isSome
  | .transparent => false
  | .trackLost => false

/-! ## Banks -/

/-- A bank of the route store. -/
def bankOf (r : RouteStore) : BankId → Bank
  | .a => r.a
  | .b => r.b

/-- The other bank. -/
def otherBank : BankId → BankId
  | .a => .b
  | .b => .a

/-- The plan number a bank carries; none for an EMPTY bank (R83). -/
def bankPlan (b : Bank) : Option Byte :=
  match b.state with
  | .empty => none
  | .loading p => some p
  | .committing p => some p
  | .committed p => some p

/-- A bank's reference count: the EXPECTED and ON_EYE records that carry its plan number (R8, R85). -/
def referenceCount (s : State) (id : BankId) : Nat :=
  match bankPlan (bankOf s.route id) with
  | none => 0
  | some p => s.tracking.countP (fun r => (isExpected r || isOnEye r) && decide (r.plan = p))

/-- The COMMITTED bank that carries a plan number, if any (R32). -/
def committedBank (r : RouteStore) (plan : Byte) : Option BankId :=
  if r.a.state = .committed plan then some .a else if r.b.state = .committed plan then some .b else none

/-! ## The configuration's consistency (R105) -/

/-- The present outlets in ascending order. -/
def presentOutlets (c : StationConfig) : List OutletId := outletIds.filter (outletPresent c)

/-- Condition 6 of R105: the stray policy is PASS or names a present outlet. -/
def strayPolicyOk (c : StationConfig) : Bool :=
  match c.strayPolicy with
  | .pass => true
  | .outlet k => outletPresent c k

/-- The first unmet condition of R105, 1..7, with the first outlet at which condition 4 or 5 fails; none when the configuration is
consistent. -/
def firstUnmet (c : StationConfig) : Option (Nat × Option OutletId) :=
  if c.outletsPresent.val < 1 then some (1, none)
  else if !decide (c.approachMin.toNat < c.approachMax.toNat) then some (2, none)
  else if !decide (c.exitMin.toNat < c.exitMax.toNat) then some (3, none)
  else
    match (presentOutlets c).find? (fun k => !decide ((c.outlets.get k).fireOffset.toNat < (c.outlets.get k).confirmMin.toNat)) with
    | some k => some (4, some k)
    | none =>
      match (presentOutlets c).find? (fun k => !decide ((c.outlets.get k).confirmMin.toNat < (c.outlets.get k).confirmMax.toNat)) with
      | some k => some (5, some k)
      | none =>
        if !strayPolicyOk c then some (6, none)
        else if decide (c.entryFilter.toNat < c.blockedLimit.toNat) && decide (c.exitFilter.toNat < c.blockedLimit.toNat) then none
        else some (7, none)

/-! ## The encoder (R66) -/

/-- The pair that follows (A, B) in the forward direction: (0,0), (1,0), (1,1), (0,1) (R66). -/
def encoderForward (a b : Bool) : Bool × Bool := (!b, a)

/-- The pair that follows (A, B) in the backward direction (R66). -/
def encoderBackward (a b : Bool) : Bool × Bool := (b, !a)

/-! ## Events that are due (R67, R74, R78) -/

/-- One of the six eyes. -/
def eyeOf (u : SensorUnit) : EyeId → Eye
  | .entry => u.entry
  | .exit => u.exit
  | .confirm k => u.confirm.get k

/-- The belt stands at its position by a forward count, so that the position has been reached (R67). -/
def reached (s : State) : Bool := decide (s.position.last = .forward)

/-- The stamp of an eye's accepted edge to the level given, if that edge waits to be taken (R74, R75). -/
def edgeDue (s : State) (e : EyeId) (blocked : Bool) : Option Pos :=
  match (eyeOf s.sensor e).cand with
  | some c => if c.ripe && (c.blocked == blocked) then some c.stamp else none
  | none => none

/-- The blocked-since position of the entry or exit eye (R77). -/
def blockedSince (u : SensorUnit) : EndEye → Pos
  | .entry => u.entrySince
  | .exit => u.exitSince

/-- The stable level of the entry or exit eye (R77). -/
def endBlocked (u : SensorUnit) : EndEye → Bool
  | .entry => u.entry.blocked
  | .exit => u.exit.blocked

/-- In TRACKING, a forward count has reached blocked-since + blocked_limit of an eye whose stable level is blocked (R78). -/
def blockedLimitDue (s : State) (e : EndEye) : Bool :=
  decide (s.control.mode = .tracking) && reached s && endBlocked s.sensor e
  && decide (s.position.pos = past (blockedSince s.sensor e) s.config.blockedLimit)

/-- In TRACKING, a backward count has left the belt more than reversal_tolerance behind the high-water position (R69). -/
def reversalDue (s : State) : Bool :=
  decide (s.control.mode = .tracking) && decide (s.position.last = .backward)
  && decide (s.config.reversalTolerance.toNat < (s.position.highWater - s.position.pos).toNat)

/-- The first EXPECTED record whose approach window closes at the position reached (R19). -/
def approachCloseDue (s : State) : Option ItemRecord :=
  if reached s then s.tracking.find? (approachClosesAt s.config s.position.pos) else none

/-- The first record, in queue order, that an exit close at the belt position removes (R59, R60). -/
def firstExitClose (s : State) : Option ItemRecord := s.tracking.find? (exitCloseRemoves s.config s.position.pos)

/-- The confirm close at the belt position removes the record now. Where both windows of the record close here, the single close of R60
is an exit close too, and exit closes at one position are taken in queue order (R59): the record's turn comes when no record before it
is still to be removed by its exit close. -/
def confirmCloseNow (s : State) (r : ItemRecord) : Bool :=
  confirmCloseRemoves s.config s.position.pos r
  && (!exitCloseRemoves s.config s.position.pos r || decide (firstExitClose s = some r))

/-- The first record, in queue order, that the confirm close reached removes (R53, R59, R60). Queue order among several confirm closes at
one position: DESIGN CHOICE (notes/assumptions/18.md). -/
def confirmCloseDue (s : State) : Option ItemRecord :=
  if reached s then s.tracking.find? (confirmCloseNow s) else none

/-- The first record that the exit close reached removes (R59, R60). -/
def exitCloseDue (s : State) : Option ItemRecord :=
  if reached s then firstExitClose s else none

/-- A window of the outlet's schedule ends at the position reached (R48). -/
def windowEndDue (s : State) (k : OutletId) : Bool :=
  reached s && (s.outlets.get k).schedule.any (fun w => decide (w.closes = s.position.pos))

/-- The stall watch's three conditions hold together (R71). -/
def watchActive (s : State) : Bool :=
  decide (s.control.mode = .tracking) && !s.tracking.isEmpty && decide (s.config.stallTime ≠ 0)

end Sys2Proof.Machine
end

