-- ==== Sys2Proof/Machine/Ops.lean ====
section
/-! DEFINITION. Machine/Ops.lean: the named operations over the state that the meanings share: the bank store, counters, notice
sources, tallies, the reply slot and cache, the queues, the outputs, the stall watch, the notice channel, the configuration write. -/

namespace Sys2Proof.Machine

/-! ## The bank store (R83, R183) -/

/-- The byte at an address; 0x00 where nothing is listed (R86). -/
def memRead : Memory → Nat → Byte
  | [], _ => 0
  | (x, y) :: m, a => if x = a then y else memRead m a

/-- The store with the byte at an address replaced, in canonical form: addresses rising, no byte 0x00 listed. -/
def memWrite : Memory → Nat → Byte → Memory
  | [], a, v => if v = 0 then [] else [(a, v)]
  | (x, y) :: m, a, v =>
    if a < x then (if v = 0 then (x, y) :: m else (a, v) :: (x, y) :: m)
    else if a = x then (if v = 0 then m else (a, v) :: m)
    else (x, y) :: memWrite m a v

/-- The store with a run of bytes written from an address on. -/
def memWriteBytes : Memory → Nat → List Byte → Memory
  | m, _, [] => m
  | m, a, v :: vs => memWriteBytes (memWrite m a v) (a + 1) vs

/-- The bytes of a run of addresses. -/
def memReadBytes (m : Memory) (a n : Nat) : List Byte := (List.range n).map (fun i => memRead m (a + i))

/-- Every cell's address is at least `low`, addresses rise strictly, no cell is 0x00. -/
def memWfFrom (low : Nat) : Memory → Bool
  | [] => true
  | (x, y) :: m => decide (low ≤ x) && decide (y ≠ 0) && memWfFrom (x + 1) m

/-- The store is in canonical form. -/
def Memory.wf (m : Memory) : Bool := memWfFrom 0 m

/-- The entry at an index of a bank (R34, R183). -/
def bankEntry (m : Memory) (i : Nat) : RouteEntry :=
  entryOfBytes (memRead m (4 * i)) (memRead m (4 * i + 1)) (memRead m (4 * i + 2)) (memRead m (4 * i + 3))

/-- The CRC-16 of a bank's 1024 entries in index order, four bytes each (R93). -/
def bankCrc (m : Memory) : BitVec 16 := crc16 (memReadBytes m 0 (4 * Config.bankEntries))

/-- The route store with a bank replaced. -/
def setBank (r : RouteStore) (id : BankId) (x : Bank) : RouteStore :=
  match id with
  | .a => { r with a := x }
  | .b => { r with b := x }

/-- The number of a bank's segments in a state. -/
def countSegs (x : Bank) (st : SegState) : Nat := x.segs.toList.countP (fun y => decide (y = st))

/-! ## Counters and notice sources (R120, R132) -/

/-- A counter raised by `n`, wrapping (R132). -/
def bumpBy (c : Counter) (n : Nat) (s : State) : State :=
  { s with report := { s.report with
      counters := s.report.counters.set (counterIndex c) (s.report.counters[counterIndex c] + BitVec.ofNat 32 n) } }

/-- A counter raised by one. -/
def bump (c : Counter) (s : State) : State := bumpBy c 1 s

/-- One more occurrence in a count that stays at 255 (R120). -/
def countUp (n : Byte) : Byte := if n = 255 then 255 else n + 1

/-- An occurrence of a notice source: its pending flag set, its count raised, masked or not (R120). -/
def occur (src : Source) (s : State) : State :=
  { s with report := { s.report with
      sources := s.report.sources.set (sourceIndex src)
        { s.report.sources[sourceIndex src] with
          pending := true
          count := countUp (s.report.sources[sourceIndex src]).count } } }

/-- A port joined to a port set. -/
def joinPort (p : Port) (ports : PortSet) : PortSet :=
  match p with
  | .u => { ports with u := true }
  | .d => { ports with d := true }

/-- An occurrence of LINK_CHANGE at a port (R120, R138). -/
def occurLinkChange (p : Port) (s : State) : State :=
  let s := occur .linkChange s
  { s with report := { s.report with linkPorts := joinPort p s.report.linkPorts } }

/-- An occurrence of RX_ERROR at a port (R120, R146). -/
def occurRxError (p : Port) (s : State) : State :=
  let s := occur .rxError s
  { s with report := { s.report with rxPorts := joinPort p s.report.rxPorts } }

/-! ## Tallies (R117, R118) -/

/-- A tally offered: the frame is built with the next sequence number and joins the queue, or is lost when the queue holds 16; the
sequence advances either way. -/
def offerTally (t : Tally) (s : State) : State :=
  let frame := tallyFrame s.relay.address s.report.tallySeq t
  if s.report.tallyQueue.length < Config.tallyCapacity then
    { s with report := { s.report with
        tallyQueue := s.report.tallyQueue ++ [frame]
        tallySeq := s.report.tallySeq + 1 } }
  else
    occur .tallyOverflow (bump .talliesLost
      { s with report := { s.report with tallySeq := s.report.tallySeq + 1 } })

/-! ## Outputs and the stall watch (R51, R71) -/

/-- Every actuator output set to what drives it (R51). -/
def refreshOutputs (s : State) : State :=
  { s with outlets := PerOutlet.ofFn (fun k => { s.outlets.get k with output := outputDriven s k }) }

/-- The stall watch made active with elapsed time 0 when its conditions have come to hold, idle when one has ceased (R71). -/
def syncWatch (s : State) : State :=
  { s with position := { s.position with
      watch := if watchActive s then some (s.position.watch.getD ⟨0, false⟩) else none } }

/-- The tracking queue replaced, with the stall watch following (R71). -/
def setTracking (q : List ItemRecord) (s : State) : State := syncWatch { s with tracking := q }

/-! ## Removals and flushes (R22, R26) -/

/-- A removal offers a tally, but for PASSED while tally_passes is off (R22). -/
def givesTally (s : State) (o : OutcomeKind) : Bool := decide (o ≠ .passed) || s.config.tallyPasses

/-- The removal of the first record that meets `p`, which is `r`, up to fields an event gave it just before: it leaves the queue, the
counter of its outcome rises, its tally is offered (R22). -/
def removeRecord (p : ItemRecord → Bool) (r : ItemRecord) (o : OutcomeKind) (at_ : Pos) (s : State) : State :=
  let s := bump (.outcome o) (setTracking (s.tracking.eraseP p) s)
  if givesTally s o then offerTally (recordTally o r at_) s else s

/-- The ABANDONED removal of one record of a flush (R26). -/
def abandon (at_ : Pos) (s : State) (r : ItemRecord) : State :=
  offerTally (recordTally .abandoned r at_) (bump (.outcome .abandoned) s)

/-- A flush: every record removed in queue order as ABANDONED, all at the current position (R26). -/
def flush (s : State) : State :=
  setTracking [] (s.tracking.foldl (abandon s.position.pos) s)

/-- Every firing schedule emptied (R50). -/
def clearSchedules (s : State) : State :=
  { s with outlets := PerOutlet.ofFn (fun k => { s.outlets.get k with schedule := [] }) }

/-- Every test fire ended (R64). -/
def endTestFires (s : State) : State :=
  { s with outlets := PerOutlet.ofFn (fun k => { s.outlets.get k with testFire := none }) }

/-- The mode changed, with the stall watch and the outputs following (R71, R51). -/
def enterMode (m : Mode) (s : State) : State :=
  refreshOutputs (syncWatch { s with control := { s.control with mode := m } })

/-- A fault taken by mode control (R109): nothing outside TRACKING; in TRACKING the cause, the flush, the schedules, the mode, the
FAULT pin and TRACK_LOST, in that order. -/
def takeFault (c : Cause) (s : State) : State :=
  if s.control.mode = .tracking then
    let s := { s with control := { s.control with cause := c } }
    let s := enterMode .trackLost (clearSchedules (flush s))
    occur .trackLost { s with control := { s.control with fault := true } }
  else s

/-! ## The relay unit's queues (R155, R156, R157) -/

/-- A frame offered to the downstream relay queue (R156). -/
def offerDown (f : Frame) (s : State) : State :=
  if s.links.d.up && decide (s.relay.downQueue.length < Config.relayCapacity) then
    { s with relay := { s.relay with downQueue := s.relay.downQueue ++ [f] } }
  else bump .undeliverable s

/-- A frame offered to the upstream relay queue (R155). -/
def offerUp (f : Frame) (s : State) : State :=
  if s.relay.upQueue.length < Config.relayCapacity then
    { s with relay := { s.relay with upQueue := s.relay.upQueue ++ [f] } }
  else occur .relayOverflow (bump .relayDrops s)

/-- The hand-off queue has room (R157). -/
def handoffRoom (s : State) : Bool := decide (s.relay.handoffQueue.length < Config.relayCapacity)

/-- A frame joined to the tail of the hand-off queue (R157). -/
def pushHandoff (f : Frame) (s : State) : State :=
  { s with relay := { s.relay with handoffQueue := s.relay.handoffQueue ++ [f] } }

/-! ## Replies (R166, R168) -/

/-- A frame placed in the reply slot, replacing an unsent one (R166). -/
def placeFrame (f : Frame) (s : State) : State := { s with request := { s.request with slot := some f } }

/-- A reply placed and cached under its request's number (R166, R168). -/
def reply (num code : Byte) (status : Status) (data : List Byte) (s : State) : State :=
  let f := replyFrame s.relay.address num code status data
  { s with request := { slot := some f, cache := some (num, f) } }

/-- A BUSY reply, placed and not cached (R63, R96). -/
def replyBusy (num code : Byte) (s : State) : State :=
  placeFrame (replyFrame s.relay.address num code .busy []) s

/-- The MODE refusal with the current mode (R102). -/
def replyMode (num code : Byte) (s : State) : State :=
  reply num code .mode [byteOf (modeCode s.control.mode)] s

/-! ## The notice channel (R123 to R130) -/

/-- The first source in priority order that is pending and not masked (R123). -/
def choosable (s : State) : Option Source :=
  allSources.find? (fun src =>
    (s.report.sources[sourceIndex src]).pending && !(s.report.sources[sourceIndex src]).masked)

/-- The detail byte of a notice (R124). -/
def noticeDetail (s : State) : Source → Byte
  | .trackLost => byteOf (causeCode s.control.cause)
  | .linkChange => portSetByte s.report.linkPorts
  | .rxError => portSetByte s.report.rxPorts
  | _ => 0

/-- A source chosen: its flag and count cleared, its port set emptied (R123). -/
def clearSource (src : Source) (r : ReportUnit) : ReportUnit :=
  { r with
    sources := r.sources.set (sourceIndex src) { r.sources[sourceIndex src] with pending := false, count := 0 }
    linkPorts := if src = .linkChange then ⟨false, false⟩ else r.linkPorts
    rxPorts := if src = .rxError then ⟨false, false⟩ else r.rxPorts }

/-- The notice channel's choice of a source (R123, R124). -/
def takeChoice (src : Source) (s : State) : State :=
  let count := (s.report.sources[sourceIndex src]).count
  let seq := s.report.channel.seq
  let frame := noticeFrame s.relay.address seq src count s.control.mode s.tracking.length s.position.pos (noticeDetail s src)
  let r := clearSource src s.report
  { s with report := { r with channel :=
      { state := .outstanding
        seq := seq + 1
        outstanding := some ⟨seq, src, count, frame⟩
        retry := 0
        timer := none
        slot := some frame
        sending := false } } }

/-- The expiry of the ack timer (R126): the notice placed again while the retry count is under notice_retries, else QUIET. -/
def takeExpiry (s : State) : State :=
  let ch := s.report.channel
  if ch.retry.toNat < s.config.noticeRetries.toNat then
    { s with report := { s.report with channel :=
        { ch with retry := ch.retry + 1, timer := none, slot := ch.outstanding.map Notice.frame } } }
  else
    { s with report := { s.report with channel := { ch with state := .quiet, timer := none } } }

/-- The channel returned to IDLE: nothing held, the timer idle, a waiting notice withdrawn (R128, R130). -/
def idleChannel (ch : Channel) : Channel :=
  { state := .idle, seq := ch.seq, outstanding := none, retry := 0, timer := none, slot := none, sending := false }

/-! ## The bank check's completion (R94, R95) -/

/-- The check completes: COMMITTED and DONE with the segment counts on a match, LOADING and CHECKSUM with the computed value on a
mismatch; the flag is cleared, the reply placed and cached under the held number. -/
def completeCheck (k : BankCheck) (s : State) : State :=
  let bank := bankOf s.route k.bank
  let computed := bankCrc bank.mem
  let plan := (bankPlan bank).getD 0
  if computed = k.expected then
    reply k.number (requestByte .commitPlan) .done
      [byteOf (countSegs bank .blank), byteOf (countSegs bank .rewritten)]
      { s with route := { setBank s.route k.bank { bank with state := .committed plan } with check := none } }
  else
    reply k.number (requestByte .commitPlan) .checksum (be16 computed)
      { s with route := { setBank s.route k.bank { bank with state := .loading plan } with check := none } }

/-! ## Sensor inputs (R74, R76, R80) -/

/-- The sensor unit with one eye replaced. -/
def setEye (u : SensorUnit) (e : EyeId) (x : Eye) : SensorUnit :=
  match e with
  | .entry => { u with entry := x }
  | .exit => { u with exit := x }
  | .confirm k => { u with confirm := u.confirm.set k x }

/-- The blocked-since position of an eye that has one (R77). -/
def setSince (u : SensorUnit) (e : EyeId) (p : Pos) : SensorUnit :=
  match e with
  | .entry => { u with entrySince := p }
  | .exit => { u with exitSince := p }
  | .confirm _ => u

/-- An edge accepted at an eye: the stable level turns, the candidate is discarded, a leading edge sets blocked-since to its stamp
(R74, R75, R77). -/
def acceptEdge (e : EyeId) (blocked : Bool) (stamp : Pos) (u : SensorUnit) : SensorUnit :=
  let u := setEye u e { eyeOf u e with blocked := blocked, cand := none }
  if blocked then setSince u e stamp else u

/-- A sampled level at an eye: a candidate opened when it differs from the stable level and none is held, discarded when it is the
stable level (R74). With a filter length of 0 the candidate is ripe at once. -/
def sampleEye (filter : Nat) (pos : Pos) (level : Bool) (x : Eye) : Eye :=
  if level = x.blocked then { x with cand := none }
  else { x with cand := some (x.cand.getD ⟨level, pos, 0, decide (filter = 0)⟩) }

/-- A count taken by an eye's filter (R74). -/
def carryEye (filter : Nat) (x : Eye) : Eye :=
  { x with cand := x.cand.map (fun c => { c with run := c.run + 1, ripe := decide (filter ≤ c.run + 1) }) }

/-- A count taken by all six filters. -/
def carryEyes (c : StationConfig) (u : SensorUnit) : SensorUnit :=
  { u with
    entry := carryEye (eyeFilter c .entry) u.entry
    exit := carryEye (eyeFilter c .exit) u.exit
    confirm := PerOutlet.ofFn (fun k => carryEye (eyeFilter c (.confirm k)) (u.confirm.get k)) }

/-- All six eyes, entry and exit first. -/
def allEyes : List EyeId := [.entry, .exit, .confirm 0, .confirm 1, .confirm 2, .confirm 3]

/-- A polarity or filter length written for one eye (R76): nothing where neither changes; an edge already accepted is taken first;
a new polarity re-reads the stable level and discards the candidate. -/
def reconfigureEye (old new : StationConfig) (pos : Pos) (u : SensorUnit) (e : EyeId) : SensorUnit :=
  if eyeHigh old e = eyeHigh new e ∧ eyeFilter old e = eyeFilter new e then u
  else
    let u :=
      match (eyeOf u e).cand with
      | some c => if c.ripe then acceptEdge e c.blocked c.stamp u else u
      | none => u
    if eyeHigh old e = eyeHigh new e then u
    else
      let level := eyeLevel (eyeHigh new e) (eyeOf u e).pin
      let u := setEye u e { eyeOf u e with blocked := level, cand := none }
      if level then setSince u e pos else u

/-- Every held lane-full level read from its pin under the polarity (R80). -/
def readLanes (laneLow : Bool) (u : SensorUnit) : SensorUnit :=
  { u with
    lanes := PerOutlet.ofFn (fun k => { u.lanes.get k with full := laneLevel laneLow (u.lanes.get k).pin }) }

/-- A configuration in force, taking effect at the sensor unit at once (R176, R76, R80). -/
def applyConfig (new : StationConfig) (s : State) : State :=
  { s with
    config := new
    sensor := readLanes new.laneLow (allEyes.foldl (reconfigureEye s.config new s.position.pos) s.sensor) }

/-- The eyes' stable levels and the lane-full levels taken from their pins under the configuration's polarities, without edges, and
the blocked-since positions 0 (R82, R77); that a clear eye has 0 too: DESIGN CHOICE (notes/assumptions/19.md). -/
def sampleInputs (c : StationConfig) (u : SensorUnit) : SensorUnit :=
  let read (e : EyeId) (x : Eye) : Eye := { x with blocked := eyeLevel (eyeHigh c e) x.pin, cand := none }
  readLanes c.laneLow
    { u with
      entry := read .entry u.entry
      exit := read .exit u.exit
      confirm := PerOutlet.ofFn (fun k => read (.confirm k) (u.confirm.get k))
      entrySince := 0
      exitSince := 0 }

/-! ## The 1 ms tick (R63, R72, R125) -/

/-- STALL set pending and the reported flag set, the elapsed time being `elapsed` (R72). -/
def reportStall (elapsed : Nat) (s : State) : State :=
  occur .stall { s with position := { s.position with watch := some ⟨elapsed, true⟩ } }

/-- A tick at the stall watch (R72). With stall_time_ms 1 the tick that follows a count at one moment reports STALL too; DESIGN CHOICE
(notes/assumptions/20.md). -/
def tickWatch (s : State) : State :=
  match s.position.watch with
  | none => s
  | some w =>
    if w.elapsed + 1 = s.config.stallTime.toNat ∧ w.reported = false then reportStall (w.elapsed + 1) s
    else { s with position := { s.position with watch := some { w with elapsed := w.elapsed + 1 } } }

/-- A tick at the ack timer (R125, R126). -/
def tickAck (s : State) : State :=
  match s.report.channel.timer with
  | none => s
  | some t =>
    if t.loaded ≤ t.elapsed + 1 then takeExpiry s
    else { s with report := { s.report with channel :=
      { s.report.channel with timer := some { t with elapsed := t.elapsed + 1 } } } }

/-- A tick at a test-fire timer: counted down, idle at zero (R63). -/
def tickFire (t : Option Nat) : Option Nat :=
  match t with
  | none => none
  | some n => if n ≤ 1 then none else some (n - 1)

/-- A tick at the four test-fire timers (R63). -/
def tickFires (s : State) : State :=
  refreshOutputs
    { s with
      outlets := PerOutlet.ofFn (fun k => { s.outlets.get k with testFire := tickFire (s.outlets.get k).testFire }) }

/-- One tick of the 1 ms time base at every mechanism that counts it (00_scope.md "Times"). -/
def tick (s : State) : State := tickFires (tickAck (tickWatch s))

end Sys2Proof.Machine
end

