-- ==== Sys2Proof/Machine/Tracking.lean ====
section
/-! DEFINITION. Machine/Tracking.lean: what the tracking unit, the resolver and the outlet unit do with one event: entry matching
(chapter 1), resolution (chapter 2), schedules, confirm and exit matching, closes (chapter 3), ITEMs (R9 to R14). -/

namespace Sys2Proof.Machine

/-! ## Entry matching (R16 to R18) -/

/-- A record inserted immediately before the first EXPECTED record, or at the tail (R6, R17). -/
def insertStray (r : ItemRecord) (q : List ItemRecord) : List ItemRecord :=
  q.takeWhile (fun x => !isExpected x) ++ r :: q.dropWhile (fun x => !isExpected x)

/-- The stray record of an entry edge stamped `e` (R1). -/
def strayRecord (e : Pos) : ItemRecord :=
  { tag := 0, dest := none, plan := 0, flags := ⟨true, false, false, false⟩, hop := 0, trail := [], arrival := e, stage := .onEye e }

/-- A stray created, or dropped with QUEUE_FULL when the queue holds 32 records (R17, R18). -/
def createStray (e : Pos) (s : State) : State :=
  if s.tracking.length < Config.trackingCapacity then
    bump .straysCreated (setTracking (insertStray (strayRecord e) s.tracking) s)
  else occur .queueFull (bump .straysDropped s)

/-- The first record that meets `p` replaced by `x`. -/
def replaceFirst (p : ItemRecord → Bool) (x : ItemRecord) : List ItemRecord → List ItemRecord
  | [] => []
  | r :: q => if p r then x :: q else r :: replaceFirst p x q

/-- An entry leading edge stamped `e` judged against the oldest EXPECTED record, and afresh against the next one after each that it
finds LOST (R16). `fuel` bounds the records tried; the queue's length is enough. -/
def matchEntry : Nat → Pos → State → State
  | 0, e, s => createStray e s
  | fuel + 1, e, s =>
    match s.tracking.find? isExpected with
    | none => createStray e s
    | some r =>
      let w := approachWindow s.config r
      if !atOrPast e w.opens then createStray e s
      else if !atOrPast e w.closes then
        setTracking (replaceFirst isExpected { r with stage := .onEye e } s.tracking) s
      else matchEntry fuel e (removeRecord isExpected r .lost w.closes s)

/-- An entry leading edge taken in TRACKING (R16). -/
def entryLeading (e : Pos) (s : State) : State := matchEntry s.tracking.length e s

/-! ## Firing schedules (R45 to R47) -/

/-- The earlier of two positions. -/
def earlier (x y : Pos) : Pos := if atOrPast y x then x else y

/-- The later of two positions. -/
def later (x y : Pos) : Pos := if atOrPast y x then y else x

/-- Two windows overlap or touch (R45, R46). -/
def windowsMeet (v w : Window) : Bool := atOrPast v.closes w.opens && atOrPast w.closes v.opens

/-- The window that spans two windows (R46). -/
def spanning (v w : Window) : Window := ⟨earlier v.opens w.opens, later v.closes w.closes⟩

/-- A window inserted at its place in start order (R45). -/
def insertWindow (n : Window) (ws : List Window) : List Window :=
  ws.takeWhile (fun w => !atOrPast w.opens n.opens) ++ n :: ws.dropWhile (fun w => !atOrPast w.opens n.opens)

/-- A window offered to a schedule (R46): merged with every window it overlaps or touches, inserted, or refused (none) when it meets
no window of a schedule that holds 8. -/
def offerWindow (n : Window) (ws : List Window) : Option (List Window) :=
  let met := ws.filter (windowsMeet n)
  if met.isEmpty then
    if ws.length < Config.scheduleCapacity then some (insertWindow n ws) else none
  else some (insertWindow (met.foldl spanning n) (ws.filter (fun w => !windowsMeet n w)))

/-! ## Resolution (R27 to R43) -/

/-- What steps 1 to 6 of Table 2-1 decide. -/
inductive RouteChoice where
  | through (reason : Option Reason)
  | outlet (k : OutletId)
deriving DecidableEq, Repr

/-- The measured length of an item (R28). -/
def measure (p t : Pos) : BitVec 16 :=
  if atOrPast t p then (if 65535 < (t - p).toNat then 65535 else (t - p).setWidth 16) else 0

/-- Step 6: the outlet chosen, or the pass (R37, Table 2-2). -/
def chooseOutlet (s : State) (primary : OutletId) (alternate : Option OutletId) : RouteChoice :=
  if outletUsable s primary then .outlet primary
  else
    match alternate with
    | some a =>
      if outletUsable s a then .outlet a
      else .through (some (if outletPresent s.config primary then .laneFull else .noOutlet))
    | none => .through (some (if outletPresent s.config primary then .laneFull else .noOutlet))

/-- Steps 4 to 6 for a record whose COMMITTED bank was found (R34, R35, R37). -/
def routeByEntry (s : State) (id : BankId) (dest : BitVec 12) (len : BitVec 16) : RouteChoice :=
  if Config.bankEntries ≤ dest.toNat then .through (some .noRoute)
  else
    let entry := bankEntry (bankOf s.route id).mem dest.toNat
    if !entry.divert then .through none
    else if entry.maxLength ≠ 0 ∧ entry.maxLength.toNat * 16 < len.toNat then .through (some .overlength)
    else chooseOutlet s entry.primary entry.alternate

/-- Steps 1 to 6 (R30 to R37). A record past step 1 always has a destination code (R34). -/
def routeRecord (s : State) (r : ItemRecord) (len : BitVec 16) : RouteChoice :=
  if r.flags.stray then
    match s.config.strayPolicy with
    | .pass => .through none
    | .outlet k => .outlet k
  else if r.flags.forcePass then .through none
  else
    match committedBank s.route r.plan with
    | none => .through (some .noPlan)
    | some id => routeByEntry s id (r.dest.getD 0) len

/-- The firing window of a record on an outlet (R38). -/
def firingWindow (c : StationConfig) (p : Pos) (len : BitVec 16) (k : OutletId) : Window :=
  let o := c.outlets.get k
  let start := past p o.fireOffset
  ⟨start, start + BitVec.ofNat 32 (max 1 (len.toNat + o.extraWidth.toNat))⟩

/-- A record made BOUND_THROUGH with its pass reason and, for a reason, its trail note (R41, R42). -/
def passRecord (address : BitVec 6) (p : Pos) (len : BitVec 16) (reason : Option Reason) (r : ItemRecord) : ItemRecord :=
  match reason with
  | none => { r with stage := .boundThrough p len none }
  | some why =>
    let (trail, flags) := addNote ⟨address, why⟩ r.trail r.flags
    { r with trail := trail, flags := flags, stage := .boundThrough p len (some why) }

/-- The ON_EYE record replaced where it stands. -/
def resolveTo (x : ItemRecord) (s : State) : State := setTracking (replaceFirst isOnEye x s.tracking) s

/-- An outlet's schedule replaced. -/
def setSchedule (k : OutletId) (ws : List Window) (s : State) : State :=
  { s with outlets := s.outlets.set k { s.outlets.get k with schedule := ws } }

/-- Steps 7 to 9 on the outlet chosen (R39, R40, R47). -/
def bindOutlet (k : OutletId) (t p : Pos) (len : BitVec 16) (r : ItemRecord) (s : State) : State :=
  let w := firingWindow s.config p len k
  if atOrPast t w.opens || atOrPast s.position.pos w.opens then
    resolveTo (passRecord s.relay.address p len (some .late) r) s
  else
    match offerWindow w (s.outlets.get k).schedule with
    | none => occur .scheduleFull (resolveTo (passRecord s.relay.address p len (some .schedFull) r) s)
    | some ws => refreshOutputs (setSchedule k ws (resolveTo { r with stage := .boundOut p len k w } s))

/-- The resolution of the ON_EYE record at the trailing edge's stamp `t` (R27 to R42); nothing where no record is ON_EYE (R21). -/
def resolve (t : Pos) (s : State) : State :=
  match s.tracking.find? isOnEye with
  | none => s
  | some r =>
    match r.stage with
    | .onEye p =>
      let len := measure p t
      match routeRecord s r len with
      | .through reason => resolveTo (passRecord s.relay.address p len reason r) s
      | .outlet k => bindOutlet k t p len r s
    | _ => s

/-! ## Confirmation (R54, R55) -/

/-- A confirm leading edge of outlet `k` stamped `x` taken in TRACKING. -/
def confirmLeading (k : OutletId) (x : Pos) (s : State) : State :=
  if outletPresent s.config k then
    match s.tracking.find? (confirmMatches s.config k x) with
    | some r => bump (.confirmedDivert k) (removeRecord (confirmMatches s.config k x) r .diverted x s)
    | none => bump .confirmStrays s
  else s

/-! ## Exit and hand-off (R58 to R62) -/

/-- The fields of a record's hand-off ITEM (R61, Table 3-1). -/
def handoffFields (r : ItemRecord) : ItemFields :=
  { tag := r.tag
    dest := r.dest
    plan := r.plan
    flags := r.flags
    hop := nextHop r.hop
    len := (measuredLength r).getD 0
    lenPresent := (measuredLength r).isSome
    trail := r.trail }

/-- A record matched at the exit eye handed off and removed with the outcome given, or HANDOFF_DROPPED when the hand-off queue is
full (R62). `r` is the record as it now stands, `p` finds it in the queue. -/
def handOff (p : ItemRecord → Bool) (r : ItemRecord) (o : OutcomeKind) (x : Pos) (s : State) : State :=
  if handoffRoom s then removeRecord p r o x (pushHandoff (itemFrame (handoffFields r)) s)
  else removeRecord p r .handoffDropped x (occur .handoffOverflow s)

/-- A BOUND_OUT record with its DIVERT_MISSED note (R60). -/
def missedRecord (address : BitVec 6) (r : ItemRecord) : ItemRecord :=
  let (trail, flags) := addNote ⟨address, .divertMissed⟩ r.trail r.flags
  { r with trail := trail, flags := flags }

/-- A BOUND_OUT record seen at the exit eye (R60). -/
def exitMissed (p : ItemRecord → Bool) (r : ItemRecord) (x : Pos) (s : State) : State :=
  let r := missedRecord s.relay.address r
  let s := occur .divertFault s
  if s.config.terminal then removeRecord p r .divertMissed x s else handOff p r .divertMissed x s

/-- A BOUND_THROUGH record seen at the exit eye (R59). -/
def exitPassed (p : ItemRecord → Bool) (r : ItemRecord) (x : Pos) (s : State) : State :=
  if s.config.terminal then removeRecord p r .endOfLine x s else handOff p r .passed x s

/-- An exit leading edge stamped `x` taken in TRACKING (R58). -/
def exitLeading (x : Pos) (s : State) : State :=
  let p := exitMatches s.config x
  match s.tracking.find? p with
  | none => bump .exitStrays s
  | some r => if (boundOutlet r).isSome then exitMissed p r x s else exitPassed p r x s

/-! ## Closes and window ends (R19, R48, R53, R59, R60) -/

/-- An EXPECTED record removed as LOST at the close of its approach window (R19). -/
def closeApproach (r : ItemRecord) (s : State) : State :=
  removeRecord (approachClosesAt s.config s.position.pos) r .lost (approachWindow s.config r).closes s

/-- A resolved record removed by the close that `p` tells of, at the position reached (R59, R60). -/
def closeResolved (p : ItemRecord → Bool) (r : ItemRecord) (s : State) : State :=
  let o := closeOutcome r
  let s := if o = .divertUnconfirmed then occur .divertFault s else s
  removeRecord p r o s.position.pos s

/-- The windows that end at the position reached removed from an outlet's schedule (R48). -/
def endWindows (k : OutletId) (s : State) : State :=
  refreshOutputs
    (setSchedule k ((s.outlets.get k).schedule.filter (fun w => !decide (w.closes = s.position.pos))) s)

/-! ## Edges taken by the tracking unit (R75) -/

/-- An accepted edge handed to the tracking unit, which acts on it in TRACKING only (R75, R16, R21, R54, R58). -/
def trackEdge (e : EyeId) (blocked : Bool) (stamp : Pos) (s : State) : State :=
  if s.control.mode = .tracking then
    match e, blocked with
    | .entry, true => entryLeading stamp s
    | .entry, false => resolve stamp s
    | .exit, true => exitLeading stamp s
    | .exit, false => s
    | .confirm k, true => confirmLeading k stamp s
    | .confirm _, false => s
  else s

/-- An edge accepted at an eye and handed to the tracking unit (R74, R75). -/
def takeEdge (e : EyeId) (blocked : Bool) (stamp : Pos) (s : State) : State :=
  trackEdge e blocked stamp { s with sensor := acceptEdge e blocked stamp s.sensor }

/-- The accepted edge that waits at an eye taken, if there is one. -/
def takeWaitingEdge (e : EyeId) (s : State) : State :=
  match edgeDue s e true with
  | some stamp => takeEdge e true stamp s
  | none =>
    match edgeDue s e false with
    | some stamp => takeEdge e false stamp s
    | none => s

/-! ## Settling a count (notes/assumptions/4.md) -/

/-- The blocked fault of an eye (R78). -/
def blockedCause : EndEye → Cause
  | .entry => .entryBlocked
  | .exit => .exitBlocked

/-- An event of the last count that no command has taken yet. -/
inductive Due where
  | edge (e : EyeId)
  | approachClose (r : ItemRecord)
  | confirmClose (r : ItemRecord)
  | exitClose (r : ItemRecord)
  | windowEnd (k : OutletId)
  | blocked (e : EndEye)
  | reversal
deriving DecidableEq, Repr

/-- An accepted edge waits at the eye. -/
def edgeWaits (s : State) (e : EyeId) : Bool := (edgeDue s e true).isSome || (edgeDue s e false).isSome

/-- The first event of the last count still to be taken, in the order edges, closes, window ends, faults. DESIGN CHOICE
(notes/assumptions/4.md): the spec leaves the order open; a sender that wants another order commands the events itself. -/
def nextDue (s : State) : Option Due :=
  match allEyes.find? (edgeWaits s) with
  | some e => some (.edge e)
  | none =>
    match approachCloseDue s with
    | some r => some (.approachClose r)
    | none =>
      match confirmCloseDue s with
      | some r => some (.confirmClose r)
      | none =>
        match exitCloseDue s with
        | some r => some (.exitClose r)
        | none =>
          match outletIds.find? (windowEndDue s) with
          | some k => some (.windowEnd k)
          | none =>
            if blockedLimitDue s .entry then some (.blocked .entry)
            else if blockedLimitDue s .exit then some (.blocked .exit)
            else if reversalDue s then some .reversal
            else none

/-- An event of the last count taken. -/
def takeDue (d : Due) (s : State) : State :=
  match d with
  | .edge e => takeWaitingEdge e s
  | .approachClose r => closeApproach r s
  | .confirmClose r => closeResolved (confirmCloseNow s) r s
  | .exitClose r => closeResolved (exitCloseRemoves s.config s.position.pos) r s
  | .windowEnd k => endWindows k s
  | .blocked e => takeFault (blockedCause e) s
  | .reversal => takeFault .reversal s

/-- At most `fuel` events of the last count taken. -/
def settleFuel : Nat → State → State
  | 0, s => s
  | fuel + 1, s =>
    match nextDue s with
    | none => s
    | some d => settleFuel fuel (takeDue d s)

/-- Every event of the last count that no command has taken, taken: six edges, the closes of the records held, four window ends and
a fault are the most there can be. -/
def settle (s : State) : State := settleFuel (s.tracking.length + 16) s

/-! ## Counts (R67, R68, R72, R74) -/

/-- A count at the position unit and at the blocks it is handed to, the encoder pair already moved on: the position and direction,
the high-water position in TRACKING, the stall watch re-armed, the filters carried, the outputs set. -/
def takeCount (forward : Bool) (s : State) : State :=
  let pos := if forward then s.position.pos + 1 else s.position.pos - 1
  let high :=
    if forward && decide (s.control.mode = .tracking) && atOrPast pos s.position.highWater then pos else s.position.highWater
  refreshOutputs
    { s with
      position := { s.position with
        pos := pos
        highWater := high
        last := if forward then .forward else .backward
        watch := s.position.watch.map (fun _ => ⟨0, false⟩) }
      sensor := carryEyes s.config s.sensor }

/-- The encoder pair moved on to its next state. -/
def moveEncoder (pair : Bool × Bool) (s : State) : State :=
  { s with position := { s.position with encA := pair.1, encB := pair.2 } }

/-! ## ITEM frames (R9 to R14) -/

/-- The record an ITEM is admitted as (R1, R12). -/
def admittedRecord (i : ItemFields) (at_ : Pos) : ItemRecord :=
  { tag := i.tag, dest := i.dest, plan := i.plan, flags := i.flags, hop := i.hop, trail := i.trail, arrival := at_, stage := .expected }

/-- The stray record with an ITEM's announced fields (R14). -/
def adoptedRecord (i : ItemFields) (r : ItemRecord) : ItemRecord :=
  { r with
    tag := i.tag
    dest := i.dest
    plan := i.plan
    hop := i.hop
    trail := i.trail
    flags :=
      { stray := false, adopted := true, forcePass := i.flags.forcePass, trailFull := r.flags.trailFull || i.flags.trailFull } }

/-- The ON_EYE record that an ITEM may be adopted into (R14). A record that carries both STRAY and ADOPTED meets the rule's three
conditions, while its last paragraph turns away a record already ADOPTED; the model adopts. DESIGN CHOICE (notes/assumptions/17.md). -/
def adopter (i : ItemFields) (s : State) : Option ItemRecord :=
  if s.tracking.any isExpected || i.flags.stray then none
  else s.tracking.find? (fun r => isOnEye r && r.flags.stray)

/-- An ITEM taken in TRACKING: adopted, admitted or refused (R9, R12, R13, R14). -/
def trackItem (i : ItemFields) (s : State) : State :=
  match adopter i s with
  | some r => setTracking (replaceFirst isOnEye (adoptedRecord i r) s.tracking) s
  | none =>
    if s.tracking.length < Config.trackingCapacity then
      setTracking (s.tracking ++ [admittedRecord i s.position.pos]) s
    else
      bump (.outcome .admitRefused)
        (occur .queueFull (offerTally (itemTally .admitRefused i none s.position.pos) s))

/-- An ITEM with its OUT_OF_SERVICE note and its hop count raised (R10). -/
def outOfServiceFields (address : BitVec 6) (i : ItemFields) : ItemFields :=
  let (trail, flags) := addNote ⟨address, .outOfService⟩ i.trail i.flags
  { i with trail := trail, flags := flags, hop := nextHop i.hop }

/-- The out-of-service relay of an ITEM, or its ending (R10, R11). -/
def outOfService (i : ItemFields) (s : State) : State :=
  if s.config.terminal then
    bump (.outcome .endOfLine) (offerTally (itemTally .endOfLine i (some .outOfService) s.position.pos) s)
  else if handoffRoom s then pushHandoff (itemFrame (outOfServiceFields s.relay.address i)) s
  else
    bump (.outcome .handoffDropped)
      (occur .handoffOverflow (offerTally (itemTally .handoffDropped i (some .passed) s.position.pos) s))

/-- An ITEM frame's payload taken by the tracking unit in an addressed mode (R9, R178). -/
def takeItem (payload : List Byte) (s : State) : State :=
  match parseItem payload with
  | none => s
  | some i => if s.control.mode = .tracking then trackItem i s else outOfService i s

end Sys2Proof.Machine
end

