-- ==== Sys2Proof/Machine/Requests.lean ====
section
/-! DEFINITION. Machine/Requests.lean: the request unit: the path of an addressed request and of a broadcast (chapter 10), the owning
rule of each of the fourteen codes, and the objects READ_OBJECT returns. -/

namespace Sys2Proof.Machine

/-! ## Mode changes shared by addressed and broadcast requests -/

/-- What refuses START_TRACKING: the status and its data (R104). -/
def startRefusal (s : State) : Option (Status × List Byte) :=
  if s.control.mode ≠ .ready then some (.mode, [byteOf (modeCode s.control.mode)])
  else
    match firstUnmet s.config with
    | some (n, o) => some (.badConfig, [byteOf n, match o with | some k => byteOf k.val | none => 0xFF#8])
    | none => none

/-- The effect of an executed START_TRACKING (R106). -/
def startEffect (s : State) : State :=
  let here := s.position.pos
  enterMode .tracking
    { endTestFires s with
      position := { s.position with highWater := here }
      sensor := { s.sensor with
        entrySince := if s.sensor.entry.blocked then here else s.sensor.entrySince
        exitSince := if s.sensor.exit.blocked then here else s.sensor.exitSince } }

/-- The effect of an executed STOP_TRACKING (R107). -/
def stopEffect (s : State) : State := enterMode .ready (clearSchedules (flush s))

/-- The effect of RESTART (R114, R130, R97, R168): the queue discarded without tallies, schedules and test fires ended, both banks
EMPTY and any check abandoned, the reply cache cleared, the report unit reset but for its masks. -/
def restartEffect (s : State) : State :=
  let s := { s with tracking := [] }
  let s := endTestFires (clearSchedules s)
  let s := { s with
    control := { s.control with cause := .none, fault := false }
    route := ⟨Bank.cleared, Bank.cleared, none⟩
    request := { s.request with cache := none }
    report :=
      { tallyQueue := []
        tallySeq := 0
        sources := s.report.sources.map (fun x => { x with pending := false, count := 0 })
        linkPorts := ⟨false, false⟩
        rxPorts := ⟨false, false⟩
        channel := Channel.cold
        counters := Vector.replicate 33 0 } }
  enterMode .ready s

/-! ## READ_OBJECT (R171, Table 11-6) -/

/-- IDENT (R172). -/
def identData (s : State) : List Byte :=
  be16 Config.partCode ++ [Config.revision]
  ++ [byteOf Config.trackingCapacity, byteOf Config.scheduleCapacity, byteOf Config.trailCapacity, byteOf Config.tallyCapacity,
      byteOf Config.relayCapacity, byteOf Config.relayCapacity, byteOf Config.relayCapacity, 2]
  ++ be16 (BitVec.ofNat 16 Config.bankEntries) ++ [byteOf Config.bankSegments, 4]
  ++ [addressByte s.relay.address, byteOf (modeCode s.control.mode), byteOf (causeCode s.control.cause)]

/-- Four segment states to a byte, the first in the high bits. -/
def packSegs : List SegState → List Byte
  | a :: b :: c :: d :: rest =>
    byteOf (64 * segStateCode a + 16 * segStateCode b + 4 * segStateCode c + segStateCode d) :: packSegs rest
  | _ => []

/-- One bank of BANK_STATUS (R100). -/
def bankStatusData (s : State) (id : BankId) : List Byte :=
  let x := bankOf s.route id
  [byteOf (bankStateCode x.state), (bankPlan x).getD 0, byteOf (referenceCount s id)] ++ packSegs x.segs.toList

/-- SCHEDULES of one outlet (R45); bits 7-2 of the state byte sent as 0: notes/assumptions/21.md. -/
def scheduleData (s : State) (k : OutletId) : List Byte :=
  let o := s.outlets.get k
  [byteOf o.schedule.length, byteOf (bit o.output + 2 * bit o.testFire.isSome)]
  ++ be16 (BitVec.ofNat 16 (o.testFire.getD 0))
  ++ o.schedule.flatMap (fun w => be32 w.opens ++ be32 w.closes)

/-- One port's byte of PORT_STATUS: bit 7 UP, bits 4-0 the flags CRC, violation, truncated, oversize, misdirected
(notes/assumptions/7.md); bits 6 and 5 sent as 0: notes/assumptions/21.md. -/
def portByte (l : LinkPort) : Byte :=
  byteOf (128 * bit l.up + 16 * bit l.flags.crc + 8 * bit l.flags.violation + 4 * bit l.flags.truncated
    + 2 * bit l.flags.oversize + bit l.flags.misdirected)

/-- Where the outstanding notice stands: 0 no notice, 1 waiting in the slot, 2 being sent, 3 sent (R131). -/
def slotByte (ch : Channel) : Byte :=
  if ch.state = .idle then 0 else if ch.slot.isSome then 1 else if ch.sending then 2 else 3

/-- A word with bit i set where `f` holds of the source of priority i; bits 15-10 sent as 0: notes/assumptions/21.md. -/
def sourceWord (f : Source → Bool) : BitVec 16 :=
  BitVec.ofNat 16 ((allSources.map (fun src => bit (f src) * 2 ^ (sourceIndex src).val)).sum)

/-- The mask word (R122, R131): bit 0, TRACK_LOST, clear. -/
def maskWord (r : ReportUnit) : BitVec 16 :=
  sourceWord (fun src => decide (src ≠ .trackLost) && (r.sources[sourceIndex src]).masked)

/-- NOTICE_STATUS (R131). -/
def noticeStatusData (s : State) : List Byte :=
  let ch := s.report.channel
  [byteOf (channelCode ch.state), ch.seq]
  ++ (match ch.outstanding with
      | some n => [n.seq, byteOf (sourceIndex n.source).val, n.count]
      | none => [0, 0, 0])
  ++ [ch.retry.setWidth 8, slotByte ch]
  ++ be16 (match ch.timer with | some t => BitVec.ofNat 16 (t.loaded - t.elapsed) | none => 0xFFFF#16)
  ++ be16 (sourceWord (fun src => (s.report.sources[sourceIndex src]).pending))
  ++ be16 (maskWord s.report)
  ++ allSources.map (fun src => (s.report.sources[sourceIndex src]).count)
  ++ [portSetByte s.report.linkPorts, portSetByte s.report.rxPorts]

/-- SENSOR_STATUS (R81); confirm eye k at bit 2 + k, lane k at bit k (notes/assumptions/7.md); bits 7-6 of the eye byte and
7-4 of the lane byte sent as 0: notes/assumptions/21.md. -/
def sensorStatusData (s : State) : List Byte :=
  let u := s.sensor
  [byteOf (bit u.entry.blocked + 2 * bit u.exit.blocked
      + (outletIds.map (fun k => bit (u.confirm.get k).blocked * 2 ^ (2 + k.val))).sum),
   byteOf ((outletIds.map (fun k => bit (u.lanes.get k).full * 2 ^ k.val)).sum)]
  ++ be32 s.position.pos ++ be32 s.position.highWater

/-- Entries of a bank from an index on, four bytes each (R100). -/
def routeData (s : State) (id : BankId) (index count : Nat) : Option (Nat × List Byte) :=
  if index < Config.bankEntries ∧ 1 ≤ count ∧ count ≤ 16 ∧ index + count ≤ Config.bankEntries then
    some (count, memReadBytes (bankOf s.route id).mem (4 * index) (4 * count))
  else none

/-- Records from an index on (R173): the depth and as many as there are, up to the count. -/
def queueData (s : State) (index count : Nat) : Option (Nat × List Byte) :=
  if index < Config.trackingCapacity ∧ 1 ≤ count ∧ count ≤ 3 then
    let found := (s.tracking.drop index).take count
    some (found.length, byteOf s.tracking.length :: found.flatMap snapshotBytes)
  else none

/-- An object read whole: index 0 and count 1. -/
def wholeObject (index count : Nat) (data : List Byte) : Option (Nat × List Byte) :=
  if index = 0 ∧ count = 1 then some (1, data) else none

/-- The count of items returned and the items of a READ_OBJECT, by space code; none where an argument is out of range (R171,
Table 10-2, Table 11-5). -/
def objectData (s : State) (space index count : Nat) : Option (Nat × List Byte) :=
  match space with
  | 0 => wholeObject index count (identData s)
  | 1 => wholeObject index count (configBytes s.config)
  | 2 => wholeObject index count (bankStatusData s .a ++ bankStatusData s .b)
  | 3 => routeData s .a index count
  | 4 => routeData s .b index count
  | 5 => queueData s index count
  | 6 =>
    match outletOfNat index with
    | some k => if count = 1 then some (1, scheduleData s k) else none
    | none => none
  | 7 => wholeObject index count [portByte s.links.u, portByte s.links.d]
  | 8 => wholeObject index count (noticeStatusData s)
  | 9 => wholeObject index count (sensorStatusData s)
  | _ => none

/-- The five error flags of both ports cleared (R147). -/
def clearErrorFlags (s : State) : State :=
  { s with links :=
      ⟨{ s.links.u with flags := ⟨false, false, false, false, false⟩ },
       { s.links.d with flags := ⟨false, false, false, false, false⟩ }⟩ }

/-- READ_OBJECT (R171): the reply built at one moment; PORT_STATUS clears its flags in the same event (R147). -/
def readObjectRule (num : Byte) (args : List Byte) (s : State) : State :=
  match args with
  | [space, i1, i0, count] =>
    match objectData s space.toNat (of16 i1 i0).toNat count.toNat with
    | some (n, data) =>
      let t := reply num (requestByte .readObject) .done ([space, i1, i0, byteOf n] ++ data) s
      if space = 7 then clearErrorFlags t else t
    | none => reply num (requestByte .readObject) .badArg [] s
  | _ => reply num (requestByte .readObject) .badArg [] s

/-! ## The other owning rules -/

/-- WRITE_CONFIG (R174). -/
def writeConfigRule (num : Byte) (args : List Byte) (s : State) : State :=
  let code := requestByte .writeConfig
  if s.control.mode ≠ .ready ∧ s.control.mode ≠ .trackLost then replyMode num code s
  else
    match args with
    | [] => reply num code .badArg [] s
    | g :: vals =>
      if groupLength g ≠ some vals.length then reply num code .badArg [] s
      else
        match writeGroup g vals s.config with
        | .inl i => reply num code .badArg [byteOf i] s
        | .inr c => reply num code .done [] (applyConfig c s)

/-- The counters of a range cleared (R133). -/
def clearCounters (first count : Nat) (v : Vector (BitVec 32) 33) : Vector (BitVec 32) 33 :=
  v.mapIdx (fun i x => if first ≤ i ∧ i < first + count then 0 else x)

/-- READ_COUNTERS (R133). -/
def readCountersRule (num : Byte) (args : List Byte) (s : State) : State :=
  let code := requestByte .readCounters
  match args with
  | [first, count, clear] =>
    if 1 ≤ count.toNat ∧ count.toNat ≤ 16 ∧ first.toNat + count.toNat ≤ 33 then
      let values := (s.report.counters.toList.drop first.toNat).take count.toNat
      let t := reply num code .done ([first, count] ++ values.flatMap be32) s
      if clear.getLsbD 0 then
        { t with report := { t.report with counters := clearCounters first.toNat count.toNat t.report.counters } }
      else t
    else reply num code .badArg [] s
  | _ => reply num code .badArg [] s

/-- OPEN_PLAN (R88). -/
def openPlanRule (num : Byte) (args : List Byte) (s : State) : State :=
  let code := requestByte .openPlan
  match args with
  | [bank, plan] =>
    match bankOfByte bank with
    | none => reply num code .badArg [] s
    | some id =>
      if plan = 0 then reply num code .badArg [] s
      else if referenceCount s id ≠ 0 then reply num code .inUse [byteOf (referenceCount s id)] s
      else if bankPlan (bankOf s.route (otherBank id)) = some plan then reply num code .dupPlan [] s
      else reply num code .done [] { s with route := setBank s.route id { Bank.cleared with state := .loading plan } }
  | _ => reply num code .badArg [] s

/-- A segment's state after a write (R84). -/
def advanceSeg : SegState → SegState
  | .blank => .written
  | .written => .rewritten
  | .rewritten => .rewritten

/-- The bank is LOADING. -/
def bankLoading (x : Bank) : Bool :=
  match x.state with
  | .loading _ => true
  | _ => false

/-- A segment of a bank written (R90). -/
def writeSegment (x : Bank) (seg : Fin 64) (entries : List Byte) : Bank :=
  { x with mem := memWriteBytes x.mem (64 * seg.val) entries, segs := x.segs.set seg (advanceSeg x.segs[seg]) }

/-- WRITE_SEGMENT (R90). -/
def writeSegmentRule (num : Byte) (args : List Byte) (s : State) : State :=
  let code := requestByte .writeSegment
  match args with
  | bank :: seg :: entries =>
    match bankOfByte bank with
    | none => reply num code .badArg [] s
    | some id =>
      if h : seg.toNat < 64 then
        let x := bankOf s.route id
        if !bankLoading x then reply num code .bankState [byteOf (bankStateCode x.state)] s
        else if !entriesWellFormed entries then reply num code .badArg [] s
        else
          let y := writeSegment x ⟨seg.toNat, h⟩ entries
          reply num code .done [byteOf (segStateCode y.segs[seg.toNat])] { s with route := setBank s.route id y }
      else reply num code .badArg [] s
  | _ => reply num code .badArg [] s

/-- COMMIT_PLAN (R92): a refusal, or the start of the bank check with no reply. -/
def commitPlanRule (num : Byte) (args : List Byte) (s : State) : State :=
  let code := requestByte .commitPlan
  match args with
  | [bank, c1, c0] =>
    match bankOfByte bank with
    | none => reply num code .badArg [] s
    | some id =>
      let x := bankOf s.route id
      match x.state with
      | .loading plan =>
        { s with route :=
          { setBank s.route id { x with state := .committing plan } with check := some ⟨id, of16 c1 c0, num⟩ } }
      | _ => reply num code .bankState [byteOf (bankStateCode x.state)] s
  | _ => reply num code .badArg [] s

/-- DROP_PLAN (R91). -/
def dropPlanRule (num : Byte) (args : List Byte) (s : State) : State :=
  let code := requestByte .dropPlan
  match args with
  | [bank] =>
    match bankOfByte bank with
    | none => reply num code .badArg [] s
    | some id =>
      if referenceCount s id ≠ 0 then reply num code .inUse [byteOf (referenceCount s id)] s
      else reply num code .done [] { s with route := setBank s.route id Bank.cleared }
  | _ => reply num code .badArg [] s

/-- START_TRACKING, addressed (R104, R106). -/
def startTrackingRule (num : Byte) (s : State) : State :=
  match startRefusal s with
  | some (status, data) => reply num (requestByte .startTracking) status data s
  | none => reply num (requestByte .startTracking) .done [] (startEffect s)

/-- STOP_TRACKING, addressed (R107). -/
def stopTrackingRule (num : Byte) (s : State) : State :=
  if s.control.mode = .tracking then reply num (requestByte .stopTracking) .done [] (stopEffect s)
  else replyMode num (requestByte .stopTracking) s

/-- The effect of RECOVER (R111). -/
def recoverEffect (s : State) : State :=
  enterMode .ready { s with control := { s.control with fault := false } }

/-- RECOVER (R111). -/
def recoverRule (num : Byte) (s : State) : State :=
  if s.control.mode = .trackLost then reply num (requestByte .recover) .done [] (recoverEffect s)
  else replyMode num (requestByte .recover) s

/-- RESTART, addressed (R114, R115). -/
def restartRule (num : Byte) (s : State) : State := reply num (requestByte .restart) .done [] (restartEffect s)

/-- ACK_NOTICE (R128). -/
def ackNoticeRule (num : Byte) (args : List Byte) (s : State) : State :=
  let code := requestByte .ackNotice
  let ch := s.report.channel
  match args with
  | [n] =>
    match ch.outstanding with
    | some o =>
      if ch.state ≠ .idle ∧ o.seq = n then
        reply num code .done [] { s with report := { s.report with channel := idleChannel ch } }
      else reply num code .stale [byteOf (channelCode ch.state), if ch.state = .idle then 0 else o.seq] s
    | none => reply num code .stale [byteOf (channelCode ch.state), 0] s
  | _ => reply num code .badArg [] s

/-- The masks of the nine maskable sources set from a word; TRACK_LOST stays unmasked (R122). -/
def setMasks (w : BitVec 16) (v : Vector SourceState 10) : Vector SourceState 10 :=
  v.mapIdx (fun i x => { x with masked := decide (i ≠ 0) && w.getLsbD i })

/-- SET_NOTICE_MASK (R122). -/
def setNoticeMaskRule (num : Byte) (args : List Byte) (s : State) : State :=
  let code := requestByte .setNoticeMask
  match args with
  | [m1, m0] =>
    let t := { s with report := { s.report with sources := setMasks (of16 m1 m0) s.report.sources } }
    reply num code .done (be16 (maskWord t.report)) t
  | _ => reply num code .badArg [] s

/-- A test fire started on an outlet (R63). -/
def startTestFire (k : OutletId) (ms : Nat) (s : State) : State :=
  refreshOutputs { s with outlets := s.outlets.set k { s.outlets.get k with testFire := some ms } }

/-- FIRE_TEST (R63). -/
def fireTestRule (num : Byte) (args : List Byte) (s : State) : State :=
  let code := requestByte .fireTest
  if s.control.mode ≠ .ready then replyMode num code s
  else
    match args with
    | [outlet, d1, d0] =>
      match outletOfNat outlet.toNat with
      | none => reply num code .badArg [] s
      | some k =>
        let ms := (of16 d1 d0).toNat
        if !outletPresent s.config k || ms < 1 || 1000 < ms then reply num code .badArg [] s
        else if (s.outlets.get k).testFire.isSome then replyBusy num code s
        else reply num code .done [] (startTestFire k ms s)
    | _ => reply num code .badArg [] s

/-! ## The path of a request (R164, R165, R170) -/

/-- Test 6: the owning rule of a code (R165). -/
def owningRule (code : RequestCode) (num : Byte) (args : List Byte) (s : State) : State :=
  match code with
  | .readObject => readObjectRule num args s
  | .writeConfig => writeConfigRule num args s
  | .readCounters => readCountersRule num args s
  | .openPlan => openPlanRule num args s
  | .writeSegment => writeSegmentRule num args s
  | .commitPlan => commitPlanRule num args s
  | .dropPlan => dropPlanRule num args s
  | .startTracking => startTrackingRule num s
  | .stopTracking => stopTrackingRule num s
  | .recover => recoverRule num s
  | .restart => restartRule num s
  | .ackNotice => ackNoticeRule num args s
  | .setNoticeMask => setNoticeMaskRule num args s
  | .fireTest => fireTestRule num args s

/-- Tests 4 to 6 (R165). -/
def executeRequest (num code : Byte) (args : List Byte) (s : State) : State :=
  match requestOfByte code with
  | none => reply num code .unknown [] s
  | some c =>
    match argumentLength c with
    | some n => if args.length = n then owningRule c num args s else reply num code .badArg [] s
    | none => owningRule c num args s

/-- Tests 3 to 6 (R165, R168). -/
def answerRequest (num code : Byte) (args : List Byte) (s : State) : State :=
  match s.request.cache with
  | some (n, f) => if n = num then placeFrame f s else executeRequest num code args s
  | none => executeRequest num code args s

/-- An addressed request with a number and a code, tests 1 and 2 first (R165, R96). -/
def takeAddressed (num code : Byte) (args : List Byte) (s : State) : State :=
  if s.request.slot.isSome ∧ code ≠ requestByte .restart then s
  else
    match s.route.check with
    | none => answerRequest num code args s
    | some k =>
      if code = requestByte .commitPlan ∧ num = k.number then s
      else if code = requestByte .restart then answerRequest num code args s
      else replyBusy num code s

/-- An addressed request's payload; one of fewer than two bytes is dropped (R164). -/
def takeAddressedPayload (payload : List Byte) (s : State) : State :=
  match payload with
  | num :: code :: args => takeAddressed num code args s
  | _ => s

/-- A broadcast request: START_TRACKING, STOP_TRACKING and RESTART executed without a reply, any other ignored and counted (R170,
R108, R164). -/
def takeBroadcast (payload : List Byte) (s : State) : State :=
  match payload with
  | _ :: code :: _ =>
    match requestOfByte code with
    | some .startTracking => if (startRefusal s).isNone then startEffect s else s
    | some .stopTracking => if s.control.mode = .tracking then stopEffect s else s
    | some .restart => restartEffect s
    | _ => bump .broadcastsIgnored s
  | _ => bump .broadcastsIgnored s

/-! ## The relay unit on a good frame (R150, R151, R152, R154) -/

/-- A REQUEST taken in an addressed mode, by its address byte (R151). A broadcast is relayed first (R164 "has already relayed";
notes/assumptions/6.md). -/
def takeRequest (f : Frame) (s : State) : State :=
  if f.addr = addressByte s.relay.address then takeAddressedPayload f.payload s
  else if f.addr = Config.broadcastAddress then takeBroadcast f.payload (offerDown f s)
  else offerDown f s

/-- An ENUMERATE, by its value (R152, R103). -/
def takeEnumerate (f : Frame) (s : State) : State :=
  if f.addr = 0 ∨ 64 ≤ f.addr.toNat then bump .enumerationsDropped s
  else if f.addr = 63 then offerDown f s
  else
    let s := { s with
      relay := { s.relay with address := f.addr.setWidth 6 }
      request := { s.request with cache := none } }
    let s := if s.control.mode = .transparent then enterMode .ready s else s
    offerDown { f with addr := f.addr + 1 } s

/-- A good frame of port U (R150). -/
def frameFromU (f : Frame) (s : State) : State :=
  if f.kind = kindEnumerate then takeEnumerate f s
  else if s.control.mode = .transparent then offerDown f s
  else if f.kind = kindRequest then takeRequest f s
  else if f.kind = kindItem then takeItem f.payload s
  else offerDown f s

/-- A good frame handed to the relay unit by a port (R140, R150, R154). -/
def frameArrival (p : Port) (f : Frame) (s : State) : State :=
  match p with
  | .u => frameFromU f s
  | .d => offerUp f s

end Sys2Proof.Machine
end

