-- ==== Sys2Proof/Machine/Link.lean ====
section
/-! DEFINITION. Machine/Link.lean: the link ports symbol by symbol and frame by frame (chapter 8) and the two transmit arbiters
(chapter 9). -/

namespace Sys2Proof.Machine

/-! ## Errors and port states (R136 to R138, R146) -/

/-- A port replaced. -/
def setLink (p : Port) (l : LinkPort) (s : State) : State := { s with links := s.links.set p l }

/-- The error flag of a kind set (R147). -/
def raiseFlag (e : RxKind) (f : ErrorFlags) : ErrorFlags :=
  match e with
  | .crc => { f with crc := true }
  | .violation => { f with violation := true }
  | .truncated => { f with truncated := true }
  | .oversize => { f with oversize := true }
  | .misdirected => { f with misdirected := true }

/-- A receive error taken at a port: its counter, its flag, RX_ERROR with the port (R146). -/
def takeRxError (p : Port) (e : RxKind) (s : State) : State :=
  let s := setLink p { s.links.get p with flags := raiseFlag e (s.links.get p).flags } s
  occurRxError p (bump (.rxError p e) s)

/-- The framer of a port set. -/
def setFramer (p : Port) (f : Framer) (s : State) : State := setLink p { s.links.get p with framer := f } s

/-- The violation run of a port set. -/
def setViolationRun (p : Port) (n : Nat) (s : State) : State := setLink p { s.links.get p with violationRun := n } s

/-- The alignment run of a port set. -/
def setAlignRun (p : Port) (n : Nat) (s : State) : State := setLink p { s.links.get p with alignRun := n } s

/-- A frame is in assembly (R139). -/
def assembling (l : LinkPort) : Bool :=
  match l.framer with
  | .inFrame _ => true
  | _ => false

/-- A DOWN port comes UP: its framer in DISCARD, its violation run 0, LINK_CHANGE with the port (R136, R138). -/
def portGoesUp (p : Port) (s : State) : State :=
  occurLinkChange p
    (setLink p { s.links.get p with up := true, alignRun := Config.alignSymbols, violationRun := 0, framer := .discard } s)

/-- The downstream relay queue discarded, each frame counted as undeliverable (R156). -/
def discardDownQueue (s : State) : State :=
  bumpBy .undeliverable s.relay.downQueue.length { s with relay := { s.relay with downQueue := [] } }

/-- An UP port goes DOWN: a frame in assembly ends as truncated, the alignment run is 0, LINK_CHANGE with the port; port D discards the
downstream relay queue (R137, R138, R156). The violation run, which the spec gives only an UP port, is 0 and the framer DISCARD while
DOWN; DESIGN CHOICE (notes/assumptions/12.md). -/
def portGoesDown (p : Port) (s : State) : State :=
  let s := if assembling (s.links.get p) then takeRxError p .truncated s else s
  let s := setLink p { s.links.get p with up := false, alignRun := 0, violationRun := 0, framer := .discard } s
  let s := occurLinkChange p s
  match p with
  | .u => s
  | .d => discardDownQueue s

/-! ## The framer (R139 to R145, Table 8-2) -/

/-- A data symbol that would make the frame in assembly hold more bytes than its length allows (R143). -/
def oversizeByte (held : List Byte) (x : Byte) : Bool :=
  match held with
  | [_, _] => decide (Config.maxPayload < x.toNat)
  | _ :: _ :: n :: rest => decide (n.toNat + 2 ≤ rest.length)
  | _ => false

/-- The checks made on the bytes of a frame at its EOF: the frame if it is good, or the first error found (R140). -/
def judgeFrame (p : Port) (held : List Byte) : RxKind ⊕ Frame :=
  match held with
  | kind :: addr :: n :: rest =>
    if rest.length ≠ n.toNat + 2 then .inl .truncated
    else
      let payload := rest.take n.toNat
      if be16 (crc16 (kind :: addr :: n :: payload)) ≠ rest.drop n.toNat then .inl .crc
      else if !kindFits p kind then .inl .misdirected
      else .inr ⟨kind, addr, payload⟩
  | _ => .inl .truncated

/-- A violation symbol at an UP port: a truncation when a frame is in assembly, a violation error otherwise; the fourth in a row takes
the port DOWN (R137, R142, R145). -/
def violationSymbol (p : Port) (s : State) : State :=
  let l := s.links.get p
  let s := takeRxError p (if assembling l then .truncated else .violation) s
  let s := setViolationRun p (l.violationRun + 1) (setFramer p .discard s)
  if Config.violationLimit ≤ l.violationRun + 1 then portGoesDown p s else s

/-- A symbol other than a violation at an UP port, by the framer's state (Table 8-2). -/
def plainSymbol (p : Port) (sym : Symbol) (s : State) : State :=
  let framer := (s.links.get p).framer
  let s := setViolationRun p 0 s
  match framer, sym with
  | .between, .data _ => setFramer p .discard (takeRxError p .violation s)
  | .between, .idle => s
  | .between, .sof => setFramer p (.inFrame []) s
  | .between, .eof => takeRxError p .violation s
  | .inFrame held, .data x =>
    if oversizeByte held x then setFramer p .discard (takeRxError p .oversize s) else setFramer p (.inFrame (held ++ [x])) s
  | .inFrame _, .idle => setFramer p .between (takeRxError p .truncated s)
  | .inFrame _, .sof => setFramer p (.inFrame []) (takeRxError p .truncated s)
  | .inFrame held, .eof =>
    match judgeFrame p held with
    | .inl e => takeRxError p e (setFramer p .between s)
    | .inr f => frameArrival p f (setFramer p .between s)
  | .discard, .data _ => s
  | .discard, .idle => setFramer p .between s
  | .discard, .sof => setFramer p (.inFrame []) s
  | .discard, .eof => setFramer p .between s
  | _, .violation => violationSymbol p s

/-- A symbol at a DOWN port: the alignment run (R136). -/
def alignSymbol (p : Port) (sym : Symbol) (s : State) : State :=
  match sym with
  | .violation => setAlignRun p 0 s
  | _ =>
    if Config.alignSymbols ≤ (s.links.get p).alignRun + 1 then portGoesUp p s
    else setAlignRun p ((s.links.get p).alignRun + 1) s

/-- A symbol decoded on a port (R134 to R145); nothing while RESET is held asserted (R148). -/
def receiveSymbol (p : Port) (sym : Symbol) (s : State) : State :=
  if s.resetHeld then s
  else if (s.links.get p).up then
    match sym with
    | .violation => violationSymbol p s
    | _ => plainSymbol p sym s
  else alignSymbol p sym s

/-- A whole frame received on a port, its CRC-16 good: every symbol from SOF to EOF (R139, R140, R143, R144). A frame already in
assembly is truncated by the SOF. Nothing on a port that is DOWN (R136). -/
def receiveFrame (p : Port) (f : Frame) (s : State) : State :=
  if s.resetHeld || !(s.links.get p).up then s
  else
    let s := if assembling (s.links.get p) then takeRxError p .truncated s else s
    let s := setFramer p .between (setViolationRun p 0 s)
    if Config.maxPayload < f.payload.length then takeRxError p .oversize s
    else if !kindFits p f.kind then takeRxError p .misdirected s
    else frameArrival p f s

/-- A receive error as a command gives it, at an UP port: the error is taken and the framer left as the symbol that shows the error
leaves it (R142, R143, R145, Table 8-2). The symbols of a frame in error are the command's own; a violation error outside a frame
needs the framer state that Table 8-2 gives it. -/
def receiveErrorEvent (p : Port) (e : RxEvent) (s : State) : State :=
  if s.resetHeld || !(s.links.get p).up then s
  else
    match e with
    | .crc => takeRxError p .crc (setFramer p .between (setViolationRun p 0 s))
    | .misdirected => takeRxError p .misdirected (setFramer p .between (setViolationRun p 0 s))
    | .oversize => takeRxError p .oversize (setFramer p .discard (setViolationRun p 0 s))
    | .truncated .violation => takeRxError p .truncated (setFramer p .discard (setViolationRun p 1 s))
    | .truncated .idle => takeRxError p .truncated (setFramer p .between (setViolationRun p 0 s))
    | .truncated .sof => takeRxError p .truncated (setFramer p (.inFrame []) (setViolationRun p 0 s))
    | .truncated .eof => takeRxError p .truncated (setFramer p .between (setViolationRun p 0 s))
    | .violation .violation => if assembling (s.links.get p) then s else violationSymbol p s
    | .violation .data =>
      if (s.links.get p).framer = .between then
        takeRxError p .violation (setFramer p .discard (setViolationRun p 0 s))
      else s
    | .violation .eof =>
      if (s.links.get p).framer = .between then takeRxError p .violation (setViolationRun p 0 s) else s

/-! ## Transmitters and arbiters (R135, R158 to R162) -/

/-- The transmitter of port U beginning a frame. -/
def sendU (source : TxSource) (f : Frame) (s : State) : State :=
  { s with relay := { s.relay with txU := .sending source (frameSymbols f) } }

/-- The transmitter of port D beginning a frame. -/
def sendD (source : TxSource) (f : Frame) (s : State) : State :=
  { s with relay := { s.relay with txD := .sending source (frameSymbols f) } }

/-- The head of the upstream relay queue granted; the turn names the tally queue afterwards (R160). -/
def grantUpRelay (f : Frame) (rest : List Frame) (s : State) : State :=
  sendU .upRelay f { s with relay := { s.relay with upQueue := rest, uTurn := .tally } }

/-- The head of the tally queue granted; the turn names the upstream relay queue afterwards (R160). -/
def grantTally (f : Frame) (rest : List Frame) (s : State) : State :=
  sendU .tally f
    { s with
      relay := { s.relay with uTurn := .relay }
      report := { s.report with tallyQueue := rest } }

/-- Step 3 of a U grant (R159, R160). -/
def grantUTurn (s : State) : State :=
  match s.relay.upQueue, s.report.tallyQueue with
  | [], [] => s
  | f :: rest, [] => grantUpRelay f rest s
  | [], t :: rest => grantTally t rest s
  | f :: rest, t :: trest =>
    match s.relay.uTurn with
    | .relay => grantUpRelay f rest s
    | .tally => grantTally t trest s

/-- A grant of the U arbiter: the reply slot, then the notice slot, then the turn (R159). -/
def grantU (s : State) : State :=
  match s.request.slot with
  | some f => sendU .reply f { s with request := { s.request with slot := none } }
  | none =>
    match s.report.channel.slot with
    | some f =>
      sendU .notice f { s with report := { s.report with channel :=
        { s.report.channel with slot := none, sending := true } } }
    | none => grantUTurn s

/-- The head of the downstream relay queue granted; the D turn names the hand-off queue afterwards (R161). -/
def grantDownRelay (f : Frame) (rest : List Frame) (s : State) : State :=
  sendD .downRelay f { s with relay := { s.relay with downQueue := rest, dTurn := .handoff } }

/-- The head of the hand-off queue granted; the D turn names the downstream relay queue afterwards (R161). -/
def grantHandoff (f : Frame) (rest : List Frame) (s : State) : State :=
  sendD .handoff f { s with relay := { s.relay with handoffQueue := rest, dTurn := .relay } }

/-- A grant of the D arbiter (R161). -/
def grantD (s : State) : State :=
  match s.relay.downQueue, s.relay.handoffQueue with
  | [], [] => s
  | f :: rest, [] => grantDownRelay f rest s
  | [], h :: rest => grantHandoff h rest s
  | f :: rest, h :: hrest =>
    match s.relay.dTurn with
    | .relay => grantDownRelay f rest s
    | .handoff => grantHandoff h hrest s

/-- The sending of the outstanding notice completed: its ack timer starts with notice_timeout_ms (R125). -/
def startAckTimer (s : State) : State :=
  if s.report.channel.sending then
    { s with report := { s.report with channel :=
      { s.report.channel with timer := some ⟨s.config.noticeTimeout.toNat, 0⟩, sending := false } } }
  else s

/-- A sending completed at its EOF (R135, R125). -/
def completeSending (p : Port) (s : State) : State :=
  match p with
  | .u =>
    match s.relay.txU with
    | .sending .notice _ => startAckTimer { s with relay := { s.relay with txU := .idle } }
    | .sending _ _ => { s with relay := { s.relay with txU := .idle } }
    | _ => s
  | .d =>
    match s.relay.txD with
    | .sending _ _ => { s with relay := { s.relay with txD := .idle } }
    | _ => s

end Sys2Proof.Machine
end

