-- ==== Sys2Proof/Machine/Resets.lean ====
section
/-! DEFINITION. Machine/Resets.lean: POWER_ON, RESET_ASSERTED and RESET_RELEASED (R82, R116). -/

namespace Sys2Proof.Machine

/-- An eye with its pin level kept and its power-on state otherwise (R82). -/
def coldEye (x : Eye) : Eye := { x with blocked := eyeLevel false x.pin, cand := none }

/-- The cold state held while RESET is asserted (R82, R116, R135, R148, R163): everything at its power-on value, the pins and the
waiting commands as they are, both transmitters silent. -/
def coldHeld (s : State) : State :=
  { State.reset with
    resetHeld := true
    relay := { RelayUnit.cold with txU := .silent, txD := .silent }
    position := { State.reset.position with encA := s.position.encA, encB := s.position.encB }
    sensor := sampleInputs StationConfig.powerOn s.sensor
    pending := s.pending }

/-- The release of RESET (R82, R135): the eye and lane-full levels taken from their pins under the power-on polarities, without
edges; both transmitters begin sending IDLE. The encoder pair now sampled is the previous pair of the first change. -/
def releaseReset (s : State) : State :=
  { s with
    resetHeld := false
    relay := { s.relay with txU := .idle, txD := .idle }
    sensor := sampleInputs s.config s.sensor }

/-- POWER_ON (R116): a cold reset that ends when the supply and clock are steady; a RESET pin still asserted holds the cold state. -/
def execPowerOn (s : State) : Host.Outcome State Fault Refusal :=
  .next (if s.resetHeld then coldHeld s else releaseReset (coldHeld s))

/-- RESET_ASSERTED (R116). -/
def execResetAsserted (s : State) : Host.Outcome State Fault Refusal := .next (coldHeld s)

/-- RESET_RELEASED (R82); nothing where RESET is not held. -/
def execResetReleased (s : State) : Host.Outcome State Fault Refusal :=
  .next (if s.resetHeld then releaseReset s else s)

end Sys2Proof.Machine
end

