-- ==== Sys2Proof/Machine/Belt.lean ====
section
/-! DEFINITION. Machine/Belt.lean: the encoder's counts and the faults of the belt (R66 to R70, R78, R79). A count first takes what
the count before it left to be taken (notes/assumptions/4.md). While RESET is held no count is taken (R82). -/

namespace Sys2Proof.Machine

/-- FORWARD_COUNT (R66, R67, R68, R70, R72, R74). -/
def execForwardCount (s : State) : Host.Outcome State Fault Refusal :=
  let moved := moveEncoder (encoderForward s.position.encA s.position.encB) s
  .next (if s.resetHeld then moved else takeCount true (settle moved))

/-- BACKWARD_COUNT (R66, R67, R70, R72, R74). -/
def execBackwardCount (s : State) : Host.Outcome State Fault Refusal :=
  let moved := moveEncoder (encoderBackward s.position.encA s.position.encB) s
  .next (if s.resetHeld then moved else takeCount false (settle moved))

/-- ENCODER_DOUBLE_CHANGE (R66): no count; the new pair becomes the previous pair. -/
def execEncoderDoubleChange (s : State) : Host.Outcome State Fault Refusal :=
  .next (moveEncoder (!s.position.encA, !s.position.encB) s)

/-- REVERSAL (R69, R109): the fault of the backward count just taken; nothing where that count does not raise it. -/
def execReversal (s : State) : Host.Outcome State Fault Refusal :=
  .next (if reversalDue s then takeFault .reversal s else s)

/-- BLOCKED_LIMIT_REACHED (R78, R79, R109): the fault of the forward count just taken; nothing where that count does not raise it. -/
def execBlockedLimitReached (eye : EndEye) (s : State) : Host.Outcome State Fault Refusal :=
  .next (if blockedLimitDue s eye then takeFault (blockedCause eye) s else s)

end Sys2Proof.Machine
end

