-- ==== Sys2Proof/Machine/Sensors.lean ====
section
/-! DEFINITION. Machine/Sensors.lean: the eye and lane-full inputs and the accepted edges (R73 to R80). An edge command takes the
accepted edge that waits at its eye (the filter's run has reached its length); where none waits it is no event and changes nothing
(notes/assumptions/5.md). -/

namespace Sys2Proof.Machine

/-- An eye's pin level changed and sampled (R74). -/
def changeEyePin (e : EyeId) (high : Bool) (s : State) : State :=
  let x := { eyeOf s.sensor e with pin := high }
  { s with sensor :=
      setEye s.sensor e (sampleEye (eyeFilter s.config e) s.position.pos (eyeLevel (eyeHigh s.config e) high) x) }

/-- EYE_PIN_CHANGE (R73, R74): an edge the eye has already accepted is taken first; while RESET is held only the pin changes. -/
def execEyePinChange (eye : EyeId) (high : Bool) (s : State) : Host.Outcome State Fault Refusal :=
  .next
    (if (eyeOf s.sensor eye).pin = high then s
     else if s.resetHeld then { s with sensor := setEye s.sensor eye { eyeOf s.sensor eye with pin := high } }
     else changeEyePin eye high (takeWaitingEdge eye s))

/-- LANE_FULL_CHANGE (R80): the held level follows the pin under the lane_full polarity; while RESET is held only the pin changes. -/
def execLaneFullChange (k : OutletId) (high : Bool) (s : State) : Host.Outcome State Fault Refusal :=
  let full := if s.resetHeld then (s.sensor.lanes.get k).full else laneLevel s.config.laneLow high
  .next { s with sensor := { s.sensor with lanes := s.sensor.lanes.set k ⟨high, full⟩ } }

/-- The edge of an eye to a level taken, if it waits. -/
def edgeCommand (e : EyeId) (blocked : Bool) (s : State) : State :=
  match edgeDue s e blocked with
  | some stamp => takeEdge e blocked stamp s
  | none => s

/-- ENTRY_LEADING_EDGE (R16 to R18, R20, R75, R77). -/
def execEntryLeadingEdge (s : State) : Host.Outcome State Fault Refusal := .next (edgeCommand .entry true s)

/-- ENTRY_TRAILING_EDGE (R21, R27 to R44, R75). -/
def execEntryTrailingEdge (s : State) : Host.Outcome State Fault Refusal := .next (edgeCommand .entry false s)

/-- CONFIRM_LEADING_EDGE (R54, R55, R75). -/
def execConfirmLeadingEdge (k : OutletId) (s : State) : Host.Outcome State Fault Refusal :=
  .next (edgeCommand (.confirm k) true s)

/-- CONFIRM_TRAILING_EDGE (R55, R75). -/
def execConfirmTrailingEdge (k : OutletId) (s : State) : Host.Outcome State Fault Refusal :=
  .next (edgeCommand (.confirm k) false s)

/-- EXIT_LEADING_EDGE (R58 to R62, R75, R77). -/
def execExitLeadingEdge (s : State) : Host.Outcome State Fault Refusal := .next (edgeCommand .exit true s)

/-- EXIT_TRAILING_EDGE (R58, R75). -/
def execExitTrailingEdge (s : State) : Host.Outcome State Fault Refusal := .next (edgeCommand .exit false s)

end Sys2Proof.Machine
end

