-- ==== Sys2Proof/Machine/Closes.lean ====
section
/-! DEFINITION. Machine/Closes.lean: the belt positions at which a window closes or ends (R19, R48, R53, R59, R60). Each is due while
the belt stands at the position by a forward count (R67); a command whose close is not due is no event and changes nothing
(notes/assumptions/5.md). -/

namespace Sys2Proof.Machine

/-- APPROACH_WINDOW_CLOSE (R19): the first EXPECTED record, in queue order, whose window closes here is LOST. -/
def execApproachWindowClose (s : State) : Host.Outcome State Fault Refusal :=
  .next
    (match approachCloseDue s with
     | some r => closeApproach r s
     | none => s)

/-- CONFIRM_WINDOW_CLOSE (R53, R59, R60): the first BOUND_OUT record whose confirm window closes here and whose exit window has closed
is DIVERT_UNCONFIRMED; a close with the exit window still open removes nothing. A record whose exit window closes here too waits for
the exit closes of the records before it. Queue order among several confirm closes at one position: DESIGN CHOICE
(notes/assumptions/18.md). -/
def execConfirmWindowClose (s : State) : Host.Outcome State Fault Refusal :=
  .next
    (match confirmCloseDue s with
     | some r => closeResolved (confirmCloseNow s) r s
     | none => s)

/-- EXIT_WINDOW_CLOSE (R59, R60): the first record whose exit window closes here is PASS_VANISHED if BOUND_THROUGH, or
DIVERT_UNCONFIRMED if BOUND_OUT with its confirm window closed. -/
def execExitWindowClose (s : State) : Host.Outcome State Fault Refusal :=
  .next
    (match exitCloseDue s with
     | some r => closeResolved (exitCloseRemoves s.config s.position.pos) r s
     | none => s)

/-- FIRING_WINDOW_END (R48): the window of the outlet's schedule that ends here is removed. -/
def execFiringWindowEnd (k : OutletId) (s : State) : Host.Outcome State Fault Refusal :=
  .next (if windowEndDue s k then endWindows k s else s)

end Sys2Proof.Machine
end

