-- ==== Sys2Proof/Machine/Timed.lean ====
section
/-! DEFINITION. Machine/Timed.lean: the events that time brings and the notice channel's choice (R63, R72, R94, R123, R126). The
command says that the time has passed; it is an event only while the operation it ends runs (notes/assumptions/5.md). -/

namespace Sys2Proof.Machine

/-- STALL (R72): the tick that brings the active watch's elapsed time to stall_time_ms, the reported flag being clear. -/
def execStall (s : State) : Host.Outcome State Fault Refusal :=
  .next
    (match s.position.watch with
     | some w => if w.reported then s else reportStall s.config.stallTime.toNat s
     | none => s)

/-- TEST_FIRE_END (R63): the test fire of the outlet ends and its output goes off. -/
def execTestFireEnd (k : OutletId) (s : State) : Host.Outcome State Fault Refusal :=
  .next
    (if (s.outlets.get k).testFire.isSome then
       refreshOutputs { s with outlets := s.outlets.set k { s.outlets.get k with testFire := none } }
     else s)

/-- BANK_CHECK_COMPLETION (R94, R95). -/
def execBankCheckCompletion (s : State) : Host.Outcome State Fault Refusal :=
  .next
    (match s.route.check with
     | some k => completeCheck k s
     | none => s)

/-- ACK_TIMEOUT (R126): the expiry of the running ack timer, taken in OUTSTANDING. -/
def execAckTimeout (s : State) : Host.Outcome State Fault Refusal :=
  .next
    (if s.report.channel.timer.isSome && decide (s.report.channel.state = .outstanding) then takeExpiry s else s)

/-- NOTICE_CHOICE (R123, R124): made only while the channel is IDLE and an unmasked source is pending. -/
def execNoticeChoice (s : State) : Host.Outcome State Fault Refusal :=
  .next
    (if s.report.channel.state = .idle then
       (match choosable s with
        | some src => takeChoice src s
        | none => s)
     else s)

end Sys2Proof.Machine
end

