-- ==== Sys2Proof/Machine/Ports.lean ====
section
/-! DEFINITION. Machine/Ports.lean: the link ports' events and the transmitters' (chapters 8 and 9). -/

namespace Sys2Proof.Machine

/-- PORT_UP (R136, R138): the alignment run of a DOWN port completes; nothing on an UP port or while RESET is held. -/
def execPortUp (p : Port) (s : State) : Host.Outcome State Fault Refusal :=
  .next (if s.resetHeld || (s.links.get p).up then s else portGoesUp p s)

/-- PORT_DOWN (R137, R138, R156): loss of signal (at a DOWN port it holds the alignment run at 0, R136), or the fourth violation in a
row, first taken as an error. -/
def execPortDown (p : Port) (cause : DownCause) (s : State) : Host.Outcome State Fault Refusal :=
  .next
    (if s.resetHeld then s
     else
       match cause with
       | .lossOfSignal => if (s.links.get p).up then portGoesDown p s else setAlignRun p 0 s
       | .fourthViolation =>
         if (s.links.get p).up && decide ((s.links.get p).violationRun + 1 = Config.violationLimit) then violationSymbol p s
         else s)

/-- RECEIVE_ERROR (R140 to R146). -/
def execReceiveError (p : Port) (e : RxEvent) (s : State) : Host.Outcome State Fault Refusal :=
  .next (receiveErrorEvent p e s)

/-- SYMBOL_RECEIVED (R134 to R145): the whole of Table 8-2 and of the alignment; a symbol that completes a frame, an error or a change
of state takes that event too. -/
def execSymbolReceived (p : Port) (sym : Symbol) (s : State) : Host.Outcome State Fault Refusal :=
  .next (receiveSymbol p sym s)

/-- U_TRANSMIT_GRANT (R158 to R160): at a free boundary of an UP port U. -/
def execUTransmitGrant (s : State) : Host.Outcome State Fault Refusal :=
  .next (if s.links.u.up && decide (s.relay.txU = .idle) then grantU s else s)

/-- D_TRANSMIT_GRANT (R158, R161): at a free boundary of an UP port D. -/
def execDTransmitGrant (s : State) : Host.Outcome State Fault Refusal :=
  .next (if s.links.d.up && decide (s.relay.txD = .idle) then grantD s else s)

/-- SENDING_COMPLETE (R135, R125). -/
def execSendingComplete (p : Port) (s : State) : Host.Outcome State Fault Refusal := .next (completeSending p s)

end Sys2Proof.Machine
end

