-- ==== Sys2Proof/Machine/Frames.lean ====
section
/-! DEFINITION. Machine/Frames.lean: the frames that arrive, each a whole frame with a good CRC-16 on its port (R140, R150, R154). -/

namespace Sys2Proof.Machine

/-- ITEM on port U (R9 to R15, R150, R178). -/
def execItem (addr : Byte) (payload : List Byte) (s : State) : Host.Outcome State Fault Refusal :=
  .next (receiveFrame .u ⟨kindItem, addr, payload⟩ s)

/-- ENUMERATE on port U with the value `v` in its address byte (R103, R149, R152, R153). -/
def execEnumerate (v : Byte) (payload : List Byte) (s : State) : Host.Outcome State Fault Refusal :=
  .next (receiveFrame .u ⟨kindEnumerate, v, payload⟩ s)

/-- DOWNSTREAM_RELAY: a frame of port U that the relay unit relays toward D (R150, R151, R156, R170). -/
def execDownstreamRelay (f : Frame) (s : State) : Host.Outcome State Fault Refusal := .next (receiveFrame .u f s)

/-- UPSTREAM_RELAY: a frame of port D (R154, R155). -/
def execUpstreamRelay (f : Frame) (s : State) : Host.Outcome State Fault Refusal := .next (receiveFrame .d f s)

end Sys2Proof.Machine
end

