-- ==== Sys2Proof/Machine/RequestFrames.lean ====
section
/-! DEFINITION. Machine/RequestFrames.lean: the REQUEST frames of port U, one meaning per request row. Each is a whole frame: consumed,
executed as a broadcast or relayed by its address byte and the mode (R150, R151), and taken through the tests of R165 where it is
addressed to this station. -/

namespace Sys2Proof.Machine

/-- UNKNOWN_REQUEST: a REQUEST whose code is not one of the fourteen (R165 test 4, R170). -/
def execUnknownRequest (addr num code : Byte) (args : List Byte) (s : State) : Host.Outcome State Fault Refusal :=
  .next (receiveFrame .u (requestFrame addr num code args) s)

/-- READ_OBJECT of IDENT (R171, R172). -/
def execIdent (addr num : Byte) (args : List Byte) (s : State) : Host.Outcome State Fault Refusal :=
  .next (receiveFrame .u (requestFrame addr num (requestByte .readObject) (0 :: args)) s)

/-- READ_OBJECT of CONFIG (R171, R172). -/
def execConfig (addr num : Byte) (args : List Byte) (s : State) : Host.Outcome State Fault Refusal :=
  .next (receiveFrame .u (requestFrame addr num (requestByte .readObject) (1 :: args)) s)

/-- READ_OBJECT of BANK_STATUS (R100, R171). -/
def execBankStatus (addr num : Byte) (args : List Byte) (s : State) : Host.Outcome State Fault Refusal :=
  .next (receiveFrame .u (requestFrame addr num (requestByte .readObject) (2 :: args)) s)

/-- READ_OBJECT of ROUTE_A or ROUTE_B (R100, R101, R171). -/
def execReadRoute (bank : BankId) (addr num : Byte) (args : List Byte) (s : State) : Host.Outcome State Fault Refusal :=
  .next (receiveFrame .u (requestFrame addr num (requestByte .readObject) ((match bank with | .a => 3#8 | .b => 4#8) :: args)) s)

/-- READ_OBJECT of QUEUE_SNAPSHOT (R171, R173, R181). -/
def execQueueSnapshot (addr num : Byte) (args : List Byte) (s : State) : Host.Outcome State Fault Refusal :=
  .next (receiveFrame .u (requestFrame addr num (requestByte .readObject) (5 :: args)) s)

/-- READ_OBJECT of SCHEDULES (R45, R171). -/
def execSchedules (addr num : Byte) (args : List Byte) (s : State) : Host.Outcome State Fault Refusal :=
  .next (receiveFrame .u (requestFrame addr num (requestByte .readObject) (6 :: args)) s)

/-- READ_OBJECT of PORT_STATUS (R147, R171). -/
def execPortStatus (addr num : Byte) (args : List Byte) (s : State) : Host.Outcome State Fault Refusal :=
  .next (receiveFrame .u (requestFrame addr num (requestByte .readObject) (7 :: args)) s)

/-- READ_OBJECT of NOTICE_STATUS (R131, R171). -/
def execNoticeStatus (addr num : Byte) (args : List Byte) (s : State) : Host.Outcome State Fault Refusal :=
  .next (receiveFrame .u (requestFrame addr num (requestByte .readObject) (8 :: args)) s)

/-- READ_OBJECT of SENSOR_STATUS (R81, R171). -/
def execSensorStatus (addr num : Byte) (args : List Byte) (s : State) : Host.Outcome State Fault Refusal :=
  .next (receiveFrame .u (requestFrame addr num (requestByte .readObject) (9 :: args)) s)

/-- WRITE_CONFIG (R76, R80, R174 to R176, R184). -/
def execWriteConfig (addr num : Byte) (args : List Byte) (s : State) : Host.Outcome State Fault Refusal :=
  .next (receiveFrame .u (requestFrame addr num (requestByte .writeConfig) args) s)

/-- READ_COUNTERS (R132, R133). -/
def execReadCounters (addr num : Byte) (args : List Byte) (s : State) : Host.Outcome State Fault Refusal :=
  .next (receiveFrame .u (requestFrame addr num (requestByte .readCounters) args) s)

/-- OPEN_PLAN (R88, R89). -/
def execOpenPlan (addr num : Byte) (args : List Byte) (s : State) : Host.Outcome State Fault Refusal :=
  .next (receiveFrame .u (requestFrame addr num (requestByte .openPlan) args) s)

/-- WRITE_SEGMENT (R84, R90, R183). -/
def execWriteSegment (addr num : Byte) (args : List Byte) (s : State) : Host.Outcome State Fault Refusal :=
  .next (receiveFrame .u (requestFrame addr num (requestByte .writeSegment) args) s)

/-- COMMIT_PLAN (R92, R93, R96). -/
def execCommitPlan (addr num : Byte) (args : List Byte) (s : State) : Host.Outcome State Fault Refusal :=
  .next (receiveFrame .u (requestFrame addr num (requestByte .commitPlan) args) s)

/-- DROP_PLAN (R91). -/
def execDropPlan (addr num : Byte) (args : List Byte) (s : State) : Host.Outcome State Fault Refusal :=
  .next (receiveFrame .u (requestFrame addr num (requestByte .dropPlan) args) s)

/-- START_TRACKING (R104 to R106, R108). -/
def execStartTracking (addr num : Byte) (args : List Byte) (s : State) : Host.Outcome State Fault Refusal :=
  .next (receiveFrame .u (requestFrame addr num (requestByte .startTracking) args) s)

/-- STOP_TRACKING (R26, R50, R107, R108). -/
def execStopTracking (addr num : Byte) (args : List Byte) (s : State) : Host.Outcome State Fault Refusal :=
  .next (receiveFrame .u (requestFrame addr num (requestByte .stopTracking) args) s)

/-- RECOVER (R111). -/
def execRecover (addr num : Byte) (args : List Byte) (s : State) : Host.Outcome State Fault Refusal :=
  .next (receiveFrame .u (requestFrame addr num (requestByte .recover) args) s)

/-- RESTART (R97, R108, R114, R115). -/
def execRestart (addr num : Byte) (args : List Byte) (s : State) : Host.Outcome State Fault Refusal :=
  .next (receiveFrame .u (requestFrame addr num (requestByte .restart) args) s)

/-- ACK_NOTICE (R128). -/
def execAckNotice (addr num : Byte) (args : List Byte) (s : State) : Host.Outcome State Fault Refusal :=
  .next (receiveFrame .u (requestFrame addr num (requestByte .ackNotice) args) s)

/-- SET_NOTICE_MASK (R121, R122). -/
def execSetNoticeMask (addr num : Byte) (args : List Byte) (s : State) : Host.Outcome State Fault Refusal :=
  .next (receiveFrame .u (requestFrame addr num (requestByte .setNoticeMask) args) s)

/-- FIRE_TEST (R63). -/
def execFireTest (addr num : Byte) (args : List Byte) (s : State) : Host.Outcome State Fault Refusal :=
  .next (receiveFrame .u (requestFrame addr num (requestByte .fireTest) args) s)

end Sys2Proof.Machine
end

