-- ==== Sys2Proof/Machine/Dispatch.lean ====
section
/-! DEFINITION. Machine/Dispatch.lean: the meaning of each command, one arm per constructor of Instr. -/

namespace Sys2Proof.Machine

def exec (i : Instr) (s : State) : Host.Outcome State Fault Refusal :=
  match i with
  | .powerOn => Sys2Proof.Machine.execPowerOn s
  | .resetAsserted => Sys2Proof.Machine.execResetAsserted s
  | .resetReleased => Sys2Proof.Machine.execResetReleased s
  | .forwardCount => Sys2Proof.Machine.execForwardCount s
  | .backwardCount => Sys2Proof.Machine.execBackwardCount s
  | .reversal => Sys2Proof.Machine.execReversal s
  | .blockedLimitReached eye => Sys2Proof.Machine.execBlockedLimitReached eye s
  | .eyePinChange eye high => Sys2Proof.Machine.execEyePinChange eye high s
  | .entryLeadingEdge => Sys2Proof.Machine.execEntryLeadingEdge s
  | .entryTrailingEdge => Sys2Proof.Machine.execEntryTrailingEdge s
  | .confirmLeadingEdge k => Sys2Proof.Machine.execConfirmLeadingEdge k s
  | .confirmTrailingEdge k => Sys2Proof.Machine.execConfirmTrailingEdge k s
  | .exitLeadingEdge => Sys2Proof.Machine.execExitLeadingEdge s
  | .exitTrailingEdge => Sys2Proof.Machine.execExitTrailingEdge s
  | .approachWindowClose => Sys2Proof.Machine.execApproachWindowClose s
  | .confirmWindowClose => Sys2Proof.Machine.execConfirmWindowClose s
  | .exitWindowClose => Sys2Proof.Machine.execExitWindowClose s
  | .firingWindowEnd k => Sys2Proof.Machine.execFiringWindowEnd k s
  | .stall => Sys2Proof.Machine.execStall s
  | .laneFullChange k high => Sys2Proof.Machine.execLaneFullChange k high s
  | .testFireEnd k => Sys2Proof.Machine.execTestFireEnd k s
  | .bankCheckCompletion => Sys2Proof.Machine.execBankCheckCompletion s
  | .ackTimeout => Sys2Proof.Machine.execAckTimeout s
  | .noticeChoice => Sys2Proof.Machine.execNoticeChoice s
  | .portUp p => Sys2Proof.Machine.execPortUp p s
  | .portDown p cause => Sys2Proof.Machine.execPortDown p cause s
  | .receiveError p e => Sys2Proof.Machine.execReceiveError p e s
  | .item addr payload => Sys2Proof.Machine.execItem addr payload s
  | .enumerate v payload => Sys2Proof.Machine.execEnumerate v payload s
  | .downstreamRelay f => Sys2Proof.Machine.execDownstreamRelay f s
  | .upstreamRelay f => Sys2Proof.Machine.execUpstreamRelay f s
  | .uTransmitGrant => Sys2Proof.Machine.execUTransmitGrant s
  | .dTransmitGrant => Sys2Proof.Machine.execDTransmitGrant s
  | .sendingComplete p => Sys2Proof.Machine.execSendingComplete p s
  | .unknownRequest addr num code args => Sys2Proof.Machine.execUnknownRequest addr num code args s
  | .ident addr num args => Sys2Proof.Machine.execIdent addr num args s
  | .config addr num args => Sys2Proof.Machine.execConfig addr num args s
  | .bankStatus addr num args => Sys2Proof.Machine.execBankStatus addr num args s
  | .readRoute bank addr num args => Sys2Proof.Machine.execReadRoute bank addr num args s
  | .queueSnapshot addr num args => Sys2Proof.Machine.execQueueSnapshot addr num args s
  | .schedules addr num args => Sys2Proof.Machine.execSchedules addr num args s
  | .portStatus addr num args => Sys2Proof.Machine.execPortStatus addr num args s
  | .noticeStatus addr num args => Sys2Proof.Machine.execNoticeStatus addr num args s
  | .sensorStatus addr num args => Sys2Proof.Machine.execSensorStatus addr num args s
  | .writeConfig addr num args => Sys2Proof.Machine.execWriteConfig addr num args s
  | .readCounters addr num args => Sys2Proof.Machine.execReadCounters addr num args s
  | .openPlan addr num args => Sys2Proof.Machine.execOpenPlan addr num args s
  | .writeSegment addr num args => Sys2Proof.Machine.execWriteSegment addr num args s
  | .commitPlan addr num args => Sys2Proof.Machine.execCommitPlan addr num args s
  | .dropPlan addr num args => Sys2Proof.Machine.execDropPlan addr num args s
  | .startTracking addr num args => Sys2Proof.Machine.execStartTracking addr num args s
  | .stopTracking addr num args => Sys2Proof.Machine.execStopTracking addr num args s
  | .recover addr num args => Sys2Proof.Machine.execRecover addr num args s
  | .restart addr num args => Sys2Proof.Machine.execRestart addr num args s
  | .ackNotice addr num args => Sys2Proof.Machine.execAckNotice addr num args s
  | .setNoticeMask addr num args => Sys2Proof.Machine.execSetNoticeMask addr num args s
  | .fireTest addr num args => Sys2Proof.Machine.execFireTest addr num args s
  | .symbolReceived p sym => Sys2Proof.Machine.execSymbolReceived p sym s
  | .encoderDoubleChange => Sys2Proof.Machine.execEncoderDoubleChange s

end Sys2Proof.Machine
end

