-- ==== Sys2Proof/Safety.lean ====
section
/-! DEFINITION. Safety.lean: what counts as a safe run, and the terms that claims use. A safe run never stops, loses no state the spec
says is kept, and keeps the invariants below. The state changes named here are written out from the spec's tables, with literal counter
indices, source numbers and bytes, and not from the operations of Machine/Ops.lean, so that a claim compares two readings of a rule. -/

namespace Sys2Proof.Safety

open Sys2Proof.Machine

/-! ## Runs -/

/-- The outcome is a next state. -/
abbrev Completes (o : Host.Outcome State Fault Refusal) : Prop := ∃ t, o = .next t

/-! ## Counters, notice sources and queues, by the numbers of Tables 7-2 and 7-5 -/

/-- Counter `i` raised by `n`. -/
def countedBy (i : Fin 33) (n : Nat) (s : State) : State :=
  { s with report := { s.report with
      counters := s.report.counters.set i (s.report.counters[i] + BitVec.ofNat 32 n) } }

/-- Counter `i` raised by one. -/
def counted (i : Fin 33) (s : State) : State := countedBy i 1 s

/-- Source `i` set pending with `n` more occurrences, the count staying at 255 (R120). -/
def raisedBy (i : Fin 10) (n : Nat) (s : State) : State :=
  { s with report := { s.report with
      sources := s.report.sources.set i
        { s.report.sources[i] with
          pending := true
          count := BitVec.ofNat 8 (min 255 (s.report.sources[i].count.toNat + n)) } } }

/-- One occurrence of source `i` (R120). -/
def raised (i : Fin 10) (s : State) : State := raisedBy i 1 s

/-- One occurrence of LINK_CHANGE at a port (R138). -/
def linkChanged (p : Port) (s : State) : State :=
  let t := raised 7 s
  { t with report := { t.report with
      linkPorts := match p with
        | .u => ⟨true, s.report.linkPorts.d⟩
        | .d => ⟨s.report.linkPorts.u, true⟩ } }

/-- The flags of a port with the one of an error kind set (R147). -/
def flagged (e : RxKind) (f : ErrorFlags) : ErrorFlags :=
  ⟨f.crc || decide (e = .crc), f.violation || decide (e = .violation), f.truncated || decide (e = .truncated),
   f.oversize || decide (e = .oversize), f.misdirected || decide (e = .misdirected)⟩

/-- The counter of an error kind at a port: 18 to 22 for U, 23 to 27 for D (Table 7-5). -/
def rxCounter (p : Port) (e : RxKind) : Fin 33 :=
  match p, e with
  | .u, .crc => 18
  | .u, .violation => 19
  | .u, .truncated => 20
  | .u, .oversize => 21
  | .u, .misdirected => 22
  | .d, .crc => 23
  | .d, .violation => 24
  | .d, .truncated => 25
  | .d, .oversize => 26
  | .d, .misdirected => 27

/-- One receive error of a port: its counter, its flag, RX_ERROR and the port set (R146). -/
def rxErred (p : Port) (e : RxKind) (s : State) : State :=
  let t := raised 8 (counted (rxCounter p e) s)
  { t with
    links := s.links.set p { s.links.get p with flags := flagged e (s.links.get p).flags }
    report := { t.report with
      rxPorts := match p with
        | .u => ⟨true, s.report.rxPorts.d⟩
        | .d => ⟨s.report.rxPorts.u, true⟩ } }

/-- The tracking queue is `q`, and the stall watch is as R71 gives in TRACKING. -/
def queueNow (q : List ItemRecord) (s : State) : State :=
  { s with
    tracking := q
    position := { s.position with
      watch :=
        if q = [] ∨ s.config.stallTime = 0 then none
        else some (match s.position.watch with | some w => w | none => ⟨0, false⟩) } }

/-- A window contains a belt position (00_scope.md "Windows"). -/
def inside (w : Window) (x : Pos) : Bool :=
  decide ((x - w.opens).toNat < 2147483648) && !decide ((x - w.closes).toNat < 2147483648)

/-- An edge or a belt position `x` is at or past `y` (00_scope.md "Positions"). -/
abbrev AtOrPast (x y : Pos) : Prop := (x - y).toNat < 2147483648

/-- A position `d` counts past `p`. -/
abbrev plus (p : Pos) (d : Dist) : Pos := p + d.setWidth 32

/-- What drives an actuator output (R51). -/
def driven (s : State) (k : OutletId) : Bool :=
  match s.control.mode with
  | .tracking => (s.outlets.get k).schedule.any (fun w => inside w s.position.pos)
  | .ready => (s.outlets.get k).testFire.isSome
  | .transparent => false
  | .trackLost => false

/-- The actuator outputs set to what drives them (R51). -/
def drive (s : State) : State :=
  { s with outlets := PerOutlet.ofFn (fun k => { s.outlets.get k with output := driven s k }) }

/-! ## Eyes (R73 to R77) -/

/-- An accepted edge waits at an eye: its candidate, of the level and stamp given, has run its filter length (R74). -/
abbrev Waits (e : EyeId) (blocked : Bool) (x : Pos) (s : State) : Prop :=
  (eyeOf s.sensor e).cand.map (fun c => (c.blocked, c.stamp, c.ripe)) = some (blocked, x, true)

/-- An edge accepted: the stable level turned, the candidate discarded, a leading edge of the entry or exit eye setting its
blocked-since position to the stamp (R74, R77). -/
def turned (e : EyeId) (blocked : Bool) (x : Pos) (s : State) : State :=
  { s with sensor :=
      match e with
      | .entry =>
        { s.sensor with
          entry := { s.sensor.entry with blocked := blocked, cand := none }
          entrySince := if blocked then x else s.sensor.entrySince }
      | .exit =>
        { s.sensor with
          exit := { s.sensor.exit with blocked := blocked, cand := none }
          exitSince := if blocked then x else s.sensor.exitSince }
      | .confirm k =>
        { s.sensor with
          confirm := s.sensor.confirm.set k { s.sensor.confirm.get k with blocked := blocked, cand := none } } }

/-- An eye after a count: its candidate's run one longer, its edge waiting once the run reaches the filter length (R74; the
waiting mark is notes/assumptions/4.md). -/
def eyeCarried (filter : Nat) (x : Eye) : Eye :=
  match x.cand with
  | some c => { x with cand := some ⟨c.blocked, c.stamp, c.run + 1, decide (filter ≤ c.run + 1)⟩ }
  | none => x

/-- The sensor unit after a count. -/
def filtersCarried (s : State) : SensorUnit :=
  { s.sensor with
    entry := eyeCarried s.config.entryFilter.toNat s.sensor.entry
    exit := eyeCarried s.config.exitFilter.toNat s.sensor.exit
    confirm := PerOutlet.ofFn (fun k => eyeCarried s.config.confirmFilter.toNat (s.sensor.confirm.get k)) }

/-- The command of an accepted edge. -/
def edgeCommandOf : EyeId → Bool → Instr
  | .entry, true => .entryLeadingEdge
  | .entry, false => .entryTrailingEdge
  | .exit, true => .exitLeadingEdge
  | .exit, false => .exitTrailingEdge
  | .confirm k, true => .confirmLeadingEdge k
  | .confirm k, false => .confirmTrailingEdge k

/-- The command of an event of the last count that is still to be taken. -/
def dueCommand (s : State) : Due → Instr
  | .edge e =>
    match (eyeOf s.sensor e).cand with
    | some c => edgeCommandOf e c.blocked
    | none => edgeCommandOf e true
  | .approachClose _ => .approachWindowClose
  | .confirmClose _ => .confirmWindowClose
  | .exitClose _ => .exitWindowClose
  | .windowEnd k => .firingWindowEnd k
  | .blocked e => .blockedLimitReached e
  | .reversal => .reversal

/-- The state once the accepted edge that waits at an eye is taken outside TRACKING, where a written configuration `c` changes the eye's
polarity or filter length (R75, R76). -/
def edgeTakenFor (c : StationConfig) (e : EyeId) (s : State) : State :=
  if eyeHigh c e = eyeHigh s.config e ∧ eyeFilter c e = eyeFilter s.config e then s
  else
    match (eyeOf s.sensor e).cand with
    | some k => if k.ripe then turned e k.blocked k.stamp s else s
    | none => s

/-! ## Frames as they stand on the link (chapter 11) -/

/-- The two bytes of bytes 2-3 of an ITEM and 4-5 of a TALLY. -/
def destinationBytes : Option (BitVec 12) → List Byte
  | none => [0x00, 0x00]
  | some d => [0x80#8 ||| (d.extractLsb' 8 4).setWidth 8, d.extractLsb' 0 8]

/-- A TALLY frame (Table 11-9). -/
def tally (address : BitVec 6) (outcome : Byte) (tag : BitVec 16) (dest : Option (BitVec 12)) (outlet reason : Byte) (pos : Pos)
    (len : Option (BitVec 16)) (seq : Byte) : Frame :=
  ⟨0x82, address.setWidth 8,
    [seq, outcome, tag.extractLsb' 8 8, tag.extractLsb' 0 8] ++ destinationBytes dest ++
    [outlet, reason, pos.extractLsb' 24 8, pos.extractLsb' 16 8, pos.extractLsb' 8 8, pos.extractLsb' 0 8] ++
    (match len with
     | none => [0x00, 0x00, 0x00]
     | some l => [l.extractLsb' 8 8, l.extractLsb' 0 8, 0x01])⟩

/-- A tally offered (R117, R118): the frame numbered by the tally sequence joins a queue of fewer than 16, else it is lost. -/
def tallied (f : Byte → Frame) (s : State) : State :=
  if s.report.tallyQueue.length < 16 then
    { s with report := { s.report with
        tallyQueue := s.report.tallyQueue ++ [f s.report.tallySeq], tallySeq := s.report.tallySeq + 1 } }
  else raised 5 (counted 30 { s with report := { s.report with tallySeq := s.report.tallySeq + 1 } })

/-- An ITEM frame (Table 11-3). -/
def item (tag : BitVec 16) (dest : Option (BitVec 12)) (plan : Byte) (flags : Flags) (hop : Byte) (len : BitVec 16)
    (lenPresent : Bool) (trail : List Note) : Frame :=
  ⟨0x01, 0x00,
    [tag.extractLsb' 8 8, tag.extractLsb' 0 8] ++ destinationBytes dest ++
    [plan,
     BitVec.ofNat 8 ((if flags.stray then 1 else 0) + (if flags.adopted then 2 else 0) + (if flags.forcePass then 4 else 0)
       + (if flags.trailFull then 8 else 0) + (if lenPresent then 128 else 0)),
     hop, len.extractLsb' 8 8, len.extractLsb' 0 8, BitVec.ofNat 8 trail.length] ++
    trail.flatMap (fun n => [n.addr.setWidth 8, BitVec.ofNat 8 (reasonCode n.reason)])⟩

/-- The hop count of an ITEM sent on (R3). -/
def hopped (hop : Byte) : Byte := if hop = 255 then 255 else hop + 1

/-- A note appended under the limit of R4: the trail and the flags. -/
def noteOn (address : BitVec 6) (why : Reason) (trail : List Note) (flags : Flags) : List Note × Flags :=
  if trail.length < 6 then (trail ++ [⟨address, why⟩], flags) else (trail, { flags with trailFull := true })

/-- A record with a note appended. -/
def noted (address : BitVec 6) (why : Reason) (r : ItemRecord) : ItemRecord :=
  { r with trail := (noteOn address why r.trail r.flags).1, flags := (noteOn address why r.trail r.flags).2 }

/-- The hand-off ITEM of a resolved record with length `len` (Table 3-1). -/
def handoffItem (r : ItemRecord) (len : BitVec 16) : Frame :=
  item r.tag r.dest r.plan r.flags (hopped r.hop) len true r.trail

/-- A frame joined to the hand-off queue (R157). -/
def handedOn (f : Frame) (s : State) : State :=
  { s with relay := { s.relay with handoffQueue := s.relay.handoffQueue ++ [f] } }

/-- The symbols of a frame on the wire (R135). -/
def wire (f : Frame) : List Symbol :=
  let covered := f.kind :: f.addr :: BitVec.ofNat 8 f.payload.length :: f.payload
  [Symbol.sof] ++ covered.map .data ++
    [.data ((crc16 covered).extractLsb' 8 8), .data ((crc16 covered).extractLsb' 0 8), .eof]

/-! ## Records that leave -/

/-- The outlet byte of a tally of a record: its outlet when BOUND_OUT, else 0xFF. -/
def outletByte (r : ItemRecord) : Byte :=
  match r.stage with
  | .boundOut _ _ k _ => BitVec.ofNat 8 k.val
  | _ => 0xFF

/-- The measured length of a resolved record. -/
def lengthOf (r : ItemRecord) : Option (BitVec 16) :=
  match r.stage with
  | .boundOut _ l _ _ => some l
  | .boundThrough _ l _ => some l
  | _ => none

/-- The pass reason byte of a record, 0 for none. -/
def passByte (r : ItemRecord) : Byte :=
  match r.stage with
  | .boundThrough _ _ (some why) => BitVec.ofNat 8 (reasonCode why)
  | _ => 0

/-- The ABANDONED tally of a record (R23, R26). -/
def abandonedTally (address : BitVec 6) (pos : Pos) (r : ItemRecord) : Byte → Frame :=
  tally address 7 r.tag r.dest (outletByte r) (passByte r) pos (lengthOf r)

/-- The report unit after the flush of the tracking queue (R26, R118): as many ABANDONED tallies as the tally queue has room for, in
queue order under successive numbers; the rest lost and counted, each raising TALLY_OVERFLOW. -/
def flushed (s : State) : ReportUnit :=
  let n := s.tracking.length
  let lost := n - (16 - s.report.tallyQueue.length)
  let frames := s.tracking.mapIdx (fun i r =>
    abandonedTally s.relay.address s.position.pos r (s.report.tallySeq + BitVec.ofNat 8 i))
  { s.report with
    tallyQueue := s.report.tallyQueue ++ frames.take (16 - s.report.tallyQueue.length)
    tallySeq := s.report.tallySeq + BitVec.ofNat 8 n
    counters := (s.report.counters.set 6 (s.report.counters[6] + BitVec.ofNat 32 n)).set 30
      (s.report.counters[30] + BitVec.ofNat 32 lost)
    sources := if lost = 0 then s.report.sources else (raisedBy 5 lost s).report.sources }

/-- The station taken out of TRACKING by a fault (R109). -/
def trackLost (cause : Cause) (s : State) : State :=
  raised 0
    { s with
      control := ⟨.trackLost, cause, true⟩
      tracking := []
      position := { s.position with watch := none }
      outlets := PerOutlet.ofFn (fun k => { s.outlets.get k with schedule := [], output := false })
      report := flushed s }

/-- A record that a confirm edge of outlet `k` stamped `x` matches (R54). -/
def confirmCandidate (s : State) (k : OutletId) (x : Pos) (r : ItemRecord) : Bool :=
  match r.stage with
  | .boundOut p _ o _ =>
    decide (o = k) && inside ⟨plus p (s.config.outlets.get k).confirmMin, plus p (s.config.outlets.get k).confirmMax⟩ x
  | _ => false

/-- A record that an exit edge stamped `x` matches (R57, R58). -/
def exitCandidate (s : State) (x : Pos) (r : ItemRecord) : Bool :=
  match r.stage with
  | .boundOut p _ _ _ => inside ⟨plus p s.config.exitMin, plus p s.config.exitMax⟩ x
  | .boundThrough p _ _ => inside ⟨plus p s.config.exitMin, plus p s.config.exitMax⟩ x
  | _ => false

/-- The exit close at the belt position removes the record: BOUND_THROUGH, or BOUND_OUT with its confirm window closed there or before
(R59, R60). A close behind the belt at resolution: notes/assumptions/16.md. -/
def exitEnds (s : State) (r : ItemRecord) : Bool :=
  match r.stage with
  | .boundOut p _ k _ =>
    decide (plus p s.config.exitMax = s.position.pos)
      && decide ((s.position.pos - plus p (s.config.outlets.get k).confirmMax).toNat < 2147483648)
  | .boundThrough p _ _ => decide (plus p s.config.exitMax = s.position.pos)
  | _ => false

/-- The confirm close at the belt position removes the record: BOUND_OUT, its exit window closed before, or closing here with no record
before it in the queue still to leave by its exit close here (R53, R59, R60). A close behind the belt at resolution counts as closed:
notes/assumptions/16.md. -/
def confirmEnds (s : State) (r : ItemRecord) : Bool :=
  match r.stage with
  | .boundOut p _ k _ =>
    decide (plus p (s.config.outlets.get k).confirmMax = s.position.pos)
      && decide ((s.position.pos - plus p s.config.exitMax).toNat < 2147483648)
      && (decide (plus p s.config.exitMax ≠ s.position.pos) || decide (s.tracking.find? (exitEnds s) = some r))
  | _ => false

/-- `r` is the first record of the tracking queue that meets `p`, with `pre` before it and `post` after it. -/
abbrev FirstOf (p : ItemRecord → Bool) (pre : List ItemRecord) (r : ItemRecord) (post : List ItemRecord) (s : State) : Prop :=
  s.tracking = pre ++ r :: post ∧ p r = true ∧ ∀ x ∈ pre, p x = false

/-! ## Resolution (chapter 2) -/

/-- The measured length of R28. -/
def measuredAs (p t : Pos) : BitVec 16 :=
  if (t - p).toNat < 2147483648 then BitVec.ofNat 16 (min 65535 (t - p).toNat) else 0

/-- In TRACKING a trailing edge of the entry eye stamped `t` waits and `r`, on the eye since `p`, is the first record ON_EYE (R27). -/
abbrev Resolves (t p : Pos) (pre : List ItemRecord) (r : ItemRecord) (post : List ItemRecord) (s : State) : Prop :=
  s.control.mode = .tracking ∧ Waits .entry false t s ∧ FirstOf isOnEye pre r post s ∧ r.stage = .onEye p

/-- An outlet number of a route entry names a usable outlet: present and not full; 15 is NONE (R36, R37). -/
def usable (s : State) (n : Nat) : Bool :=
  decide (n < s.config.outletsPresent.val) &&
    (match n with
     | 0 => !s.sensor.lanes.o0.full
     | 1 => !s.sensor.lanes.o1.full
     | 2 => !s.sensor.lanes.o2.full
     | 3 => !s.sensor.lanes.o3.full
     | _ => false)

/-- Byte `j` of entry `d` of a bank (R183). -/
def entryByte (s : State) (id : BankId) (d j : Nat) : Byte := memRead (bankOf s.route id).mem (4 * d + j)

/-- The bank `id` is found by the record's plan: COMMITTED with its number (R32). -/
abbrev FindsBank (id : BankId) (r : ItemRecord) (s : State) : Prop :=
  (bankOf s.route id).state = .committed r.plan ∧ (id = .b → s.route.a.state ≠ .committed r.plan)

/-- The record, unstrayed and unforced, reads the well-formed entry `d` of bank `id` (R34). -/
abbrev ReadsEntry (id : BankId) (d : BitVec 12) (r : ItemRecord) (s : State) : Prop :=
  r.flags.stray = false ∧ r.flags.forcePass = false ∧ FindsBank id r s ∧ r.dest = some d ∧ d.toNat < 1024
  ∧ entryWellFormed (entryByte s id d.toNat 0) (entryByte s id d.toNat 1) = true

/-- The max_length of an entry (Table 11-10). -/
def entryLimit (s : State) (id : BankId) (d : Nat) : Nat :=
  256 * (entryByte s id d 2).toNat + (entryByte s id d 3).toNat

/-- The primary outlet number of an entry. -/
def entryPrimary (s : State) (id : BankId) (d : Nat) : Nat := (entryByte s id d 1).toNat / 16

/-- The alternate outlet number of an entry, 15 for NONE. -/
def entryAlternate (s : State) (id : BankId) (d : Nat) : Nat := (entryByte s id d 1).toNat % 16

/-- A DIVERT entry whose limit the length does not exceed (R34, R35). -/
abbrev Diverts (id : BankId) (d : BitVec 12) (len : BitVec 16) (r : ItemRecord) (s : State) : Prop :=
  ReadsEntry id d r s ∧ entryByte s id d.toNat 0 = 1
  ∧ (entryLimit s id d.toNat = 0 ∨ len.toNat ≤ 16 * entryLimit s id d.toNat)

/-- Steps 1 to 6 of Table 2-1 pass the record, with the reason given or without one. -/
def Passes (len : BitVec 16) (r : ItemRecord) (s : State) : Option Reason → Prop
  | none =>
    (r.flags.stray = true ∧ s.config.strayPolicy = .pass)
    ∨ (r.flags.stray = false ∧ r.flags.forcePass = true)
    ∨ ∃ id d, ReadsEntry id d r s ∧ entryByte s id d.toNat 0 = 0
  | some .noPlan =>
    r.flags.stray = false ∧ r.flags.forcePass = false ∧ s.route.a.state ≠ .committed r.plan ∧ s.route.b.state ≠ .committed r.plan
  | some .noRoute =>
    r.flags.stray = false ∧ r.flags.forcePass = false ∧ ∃ id d, FindsBank id r s ∧ r.dest = some d ∧ 1024 ≤ d.toNat
  | some .overlength =>
    ∃ id d, ReadsEntry id d r s ∧ entryByte s id d.toNat 0 = 1 ∧ entryLimit s id d.toNat ≠ 0
      ∧ 16 * entryLimit s id d.toNat < len.toNat
  | some .laneFull =>
    ∃ id d, Diverts id d len r s ∧ usable s (entryPrimary s id d.toNat) = false ∧ usable s (entryAlternate s id d.toNat) = false
      ∧ entryPrimary s id d.toNat < s.config.outletsPresent.val
  | some .noOutlet =>
    ∃ id d, Diverts id d len r s ∧ usable s (entryPrimary s id d.toNat) = false ∧ usable s (entryAlternate s id d.toNat) = false
      ∧ s.config.outletsPresent.val ≤ entryPrimary s id d.toNat
  | _ => False

/-- Steps 1 to 6 of Table 2-1 choose an outlet for the record (R30, R37). -/
def Chooses (len : BitVec 16) (r : ItemRecord) (s : State) (k : OutletId) : Prop :=
  (r.flags.stray = true ∧ s.config.strayPolicy = .outlet k)
  ∨ ∃ id d, Diverts id d len r s ∧
      ((usable s (entryPrimary s id d.toNat) = true ∧ entryPrimary s id d.toNat = k.val)
       ∨ (usable s (entryPrimary s id d.toNat) = false ∧ usable s (entryAlternate s id d.toNat) = true
          ∧ entryAlternate s id d.toNat = k.val))

/-- The record passed at resolution: BOUND_THROUGH, with its note when it is passed for a reason (R41, R42). -/
def passed (address : BitVec 6) (p : Pos) (len : BitVec 16) (why : Option Reason) (r : ItemRecord) : ItemRecord :=
  match why with
  | none => { r with stage := .boundThrough p len none }
  | some w => { noted address w r with stage := .boundThrough p len (some w) }

/-- The firing window of R38. -/
def firingWindowOf (s : State) (p : Pos) (len : BitVec 16) (k : OutletId) : Window :=
  let start := plus p (s.config.outlets.get k).fireOffset
  ⟨start, start + BitVec.ofNat 32 (max 1 (len.toNat + (s.config.outlets.get k).extraWidth.toNat))⟩

/-- The window has begun at the edge's stamp or at the belt position (R39). -/
abbrev Late (t : Pos) (w : Window) (s : State) : Prop := AtOrPast t w.opens ∨ AtOrPast s.position.pos w.opens

/-- Two windows overlap or touch (R45, R46). -/
abbrev Meets (v w : Window) : Prop := AtOrPast v.closes w.opens ∧ AtOrPast w.closes v.opens

/-! ## The ports' receive side (chapter 8) -/

/-- The port holds a frame in assembly (R139). -/
abbrev Assembles (p : Port) (s : State) : Prop := ∃ bytes, (s.links.get p).framer = .inFrame bytes

/-- The framer of a port moved to `f` with the violation run `n`. -/
def framed (p : Port) (f : Framer) (n : Nat) (s : State) : State :=
  { s with links := s.links.set p { s.links.get p with framer := f, violationRun := n } }

/-- A DOWN port gone UP (R136, R138); the alignment run held at 32 is notes/assumptions/13.md. -/
def wentUp (p : Port) (s : State) : State :=
  linkChanged p
    { s with
      links := s.links.set p
        { s.links.get p with up := true, alignRun := 32, violationRun := 0, framer := .discard } }

/-- An UP port gone DOWN, its errors already taken: LINK_CHANGE, and at port D the downstream relay queue discarded and counted as
undeliverable (R137, R138, R156). That the DOWN port holds its framer as DISCARD and its violation run as 0 is notes/assumptions/12.md. -/
def wentDown (p : Port) (s : State) : State :=
  let t := linkChanged p
    { s with
      links := s.links.set p
        { s.links.get p with up := false, alignRun := 0, violationRun := 0, framer := .discard } }
  match p with
  | .u => t
  | .d => countedBy 29 s.relay.downQueue.length { t with relay := { t.relay with downQueue := [] } }

/-- A byte that makes a frame in assembly oversize (R143). -/
def Overfull (bytes : List Byte) (x : Byte) : Prop :=
  (bytes.length = 2 ∧ 80 < x.toNat) ∨ ∃ k a n rest, bytes = k :: a :: n :: rest ∧ n.toNat + 2 ≤ rest.length

/-- Bytes that are not a complete frame at its EOF (R140, R142). -/
def Incomplete (bytes : List Byte) : Prop :=
  bytes.length < 3 ∨ ∃ k a n rest, bytes = k :: a :: n :: rest ∧ rest.length ≠ n.toNat + 2

/-- The state after the symbols of a list, each taken as a SYMBOL_RECEIVED. -/
def Received (p : Port) : List Symbol → State → State → Prop
  | [], s, t => s = t
  | x :: rest, s, t => ∃ u, exec (.symbolReceived p x) s = .next u ∧ Received p rest u t

/-! ## Receiving on a port -/

/-- The port receives: RESET is not held and the port is UP. -/
abbrev Hears (p : Port) (s : State) : Prop := s.resetHeld = false ∧ (s.links.get p).up = true

/-- The state in which a whole frame of a port has been received: a frame that its SOF cut off is truncated (R142), the framer is in
BETWEEN, the violation run is 0. -/
def heard (p : Port) (s : State) : State :=
  let t :=
    match (s.links.get p).framer with
    | .inFrame _ => rxErred p .truncated s
    | _ => s
  { t with links := t.links.set p { t.links.get p with framer := .between, violationRun := 0 } }

/-- A frame offered to the downstream relay queue (R156). -/
def relayedDown (f : Frame) (s : State) : State :=
  if s.links.d.up = true ∧ s.relay.downQueue.length < 8 then
    { s with relay := { s.relay with downQueue := s.relay.downQueue ++ [f] } }
  else counted 29 s

/-- A request addressed to this station that the tests 1 to 3 of R165 let through: the slot empty, no check in flight, its number not
the cached one. `n` is the number of its argument bytes. -/
abbrev Takes (addr num : Byte) (n : Nat) (s : State) : Prop :=
  Hears .u s ∧ s.control.mode ≠ .transparent ∧ addr = s.relay.address.setWidth 8 ∧ s.request.slot = none ∧ s.route.check = none
  ∧ s.request.cache.map Prod.fst ≠ some num ∧ n ≤ 78

/-- A REPLY of a status and data placed in the slot and cached under its number (R164, R166, R168, R180). -/
def answered (num code status : Byte) (data : List Byte) (s : State) : State :=
  let f : Frame := ⟨0x81, s.relay.address.setWidth 8, num :: code :: status :: data⟩
  { s with request := ⟨some f, some (num, f)⟩ }

/-- A BUSY reply placed and not cached (R96, R63). -/
def busied (num code : Byte) (s : State) : State :=
  { s with request := { s.request with slot := some ⟨0x81, s.relay.address.setWidth 8, [num, code, 0x01]⟩ } }

/-- The address byte, request number, code and argument bytes of a REQUEST row. -/
def requestOf : Instr → Option (Byte × Byte × Byte × List Byte)
  | .unknownRequest a n code args => some (a, n, code, args)
  | .ident a n args => some (a, n, 0x01, 0x00 :: args)
  | .config a n args => some (a, n, 0x01, 0x01 :: args)
  | .bankStatus a n args => some (a, n, 0x01, 0x02 :: args)
  | .readRoute .a a n args => some (a, n, 0x01, 0x03 :: args)
  | .readRoute .b a n args => some (a, n, 0x01, 0x04 :: args)
  | .queueSnapshot a n args => some (a, n, 0x01, 0x05 :: args)
  | .schedules a n args => some (a, n, 0x01, 0x06 :: args)
  | .portStatus a n args => some (a, n, 0x01, 0x07 :: args)
  | .noticeStatus a n args => some (a, n, 0x01, 0x08 :: args)
  | .sensorStatus a n args => some (a, n, 0x01, 0x09 :: args)
  | .writeConfig a n args => some (a, n, 0x02, args)
  | .readCounters a n args => some (a, n, 0x03, args)
  | .openPlan a n args => some (a, n, 0x10, args)
  | .writeSegment a n args => some (a, n, 0x11, args)
  | .commitPlan a n args => some (a, n, 0x12, args)
  | .dropPlan a n args => some (a, n, 0x13, args)
  | .startTracking a n args => some (a, n, 0x20, args)
  | .stopTracking a n args => some (a, n, 0x21, args)
  | .recover a n args => some (a, n, 0x22, args)
  | .restart a n args => some (a, n, 0x23, args)
  | .ackNotice a n args => some (a, n, 0x30, args)
  | .setNoticeMask a n args => some (a, n, 0x31, args)
  | .fireTest a n args => some (a, n, 0x40, args)
  | _ => none

/-- The length of the arguments of a code (Table 11-4); none for WRITE_CONFIG and for a byte that is no code. -/
def argumentBytes (code : Byte) : Option Nat :=
  if code = 0x01 then some 4
  else if code = 0x03 then some 3
  else if code = 0x10 then some 2
  else if code = 0x11 then some 66
  else if code = 0x12 then some 3
  else if code = 0x13 then some 1
  else if code = 0x20 then some 0
  else if code = 0x21 then some 0
  else if code = 0x22 then some 0
  else if code = 0x23 then some 0
  else if code = 0x30 then some 1
  else if code = 0x31 then some 2
  else if code = 0x40 then some 3
  else none

/-- A REQUEST heard on U that is addressed to this station in an addressed mode (R151). -/
abbrev OwnRequest (addr : Byte) (n : Nat) (s : State) : Prop :=
  Hears .u s ∧ s.control.mode ≠ .transparent ∧ addr = s.relay.address.setWidth 8 ∧ n ≤ 78

/-- Payloads of an ITEM that R178 refuses. -/
def RefusedItem (payload : List Byte) : Prop :=
  payload.length < 10 ∨ 6 < (payload.getD 9 0).toNat ∨ payload.length ≠ 10 + 2 * (payload.getD 9 0).toNat
  ∨ (∃ j, j < (payload.getD 9 0).toNat
      ∧ (payload.getD (10 + 2 * j) 0 = 0 ∨ 62 < (payload.getD (10 + 2 * j) 0).toNat
        ∨ payload.getD (11 + 2 * j) 0 = 0 ∨ 9 < (payload.getD (11 + 2 * j) 0).toNat))
  ∨ ((payload.getD 2 0).getLsbD 7 = false ∧ (payload.getD 5 0).getLsbD 0 = false)

/-- A note that an ITEM may carry: a station address 1..62 and a reason 1..9 (Table 11-3). -/
abbrev NoteFits (n : Note) : Prop := 1 ≤ n.addr.toNat ∧ n.addr.toNat ≤ 62 ∧ n.reason ≠ .passed

/-- The mode code (Table 11-2). -/
def modeByte : Mode → Byte
  | .transparent => 0
  | .ready => 1
  | .tracking => 2
  | .trackLost => 3

/-- The track-lost cause code (Table 11-2). -/
def causeByte : Cause → Byte
  | .none => 0
  | .reversal => 1
  | .entryBlocked => 2
  | .exitBlocked => 3

/-- The bank state code (Table 11-2). -/
def bankStateByte : BankState → Byte
  | .empty => 0
  | .loading _ => 1
  | .committing _ => 2
  | .committed _ => 3

/-- The segment state code (Table 11-2). -/
def segByte : SegState → Byte
  | .blank => 0
  | .written => 1
  | .rewritten => 2

/-- The channel state code (Table 11-2). -/
def channelByte : ChannelState → Byte
  | .idle => 0
  | .outstanding => 1
  | .quiet => 2

/-- A port set byte: bit 0 port U, bit 1 port D (section 11.1); in a reply the other bits 0 (notes/assumptions/21.md). -/
def portsByte (p : PortSet) : Byte := (if p.u then 1 else 0) ||| (if p.d then 2 else 0)

/-- A bank argument (section 11.1). -/
def bankByte : BankId → Byte
  | .a => 0
  | .b => 1

/-- The two bytes of a 16-bit field. -/
abbrev two (w : BitVec 16) : List Byte := [w.extractLsb' 8 8, w.extractLsb' 0 8]

/-- The three bytes of a distance. -/
abbrev three (w : Dist) : List Byte := [w.extractLsb' 16 8, w.extractLsb' 8 8, w.extractLsb' 0 8]

/-- The four bytes of a position or a counter. -/
abbrev four (w : BitVec 32) : List Byte :=
  [w.extractLsb' 24 8, w.extractLsb' 16 8, w.extractLsb' 8 8, w.extractLsb' 0 8]

/-- A bank's reference count: the EXPECTED and ON_EYE records that carry its plan number (R85). -/
def references (s : State) (id : BankId) : Nat :=
  s.tracking.countP (fun r =>
    match r.stage with
    | .expected => decide (bankPlan (bankOf s.route id) = some r.plan)
    | .onEye _ => decide (bankPlan (bankOf s.route id) = some r.plan)
    | _ => false)

/-- The capability and identity bytes of IDENT (R172, Table 11-6). -/
def identBytes (s : State) : List Byte :=
  [0x03, 0x12, 0x01, 32, 8, 6, 16, 8, 8, 8, 2, 0x04, 0x00, 64, 4, s.relay.address.setWidth 8, modeByte s.control.mode,
   causeByte s.control.cause]

/-- The value bytes of configuration group `g` (Table 11-7); confirm eye k at bit 2 + k of the polarity byte is notes/assumptions/7.md. -/
def groupBytes (c : StationConfig) (g : Nat) : List Byte :=
  match g with
  | 0 => [BitVec.ofNat 8 c.outletsPresent.val,
      (match c.strayPolicy with
       | .pass => 0x00
       | .outlet k => 0x10#8 ||| BitVec.ofNat 8 k.val),
      if c.terminal then 1 else 0, if c.tallyPasses then 1 else 0]
  | 1 => [c.entryFilter.setWidth 8, c.exitFilter.setWidth 8, c.confirmFilter.setWidth 8,
      (if c.entryHigh then 1 else 0) ||| (if c.exitHigh then 2 else 0) ||| (if c.confirmHigh.get 0 then 4 else 0)
      ||| (if c.confirmHigh.get 1 then 8 else 0) ||| (if c.confirmHigh.get 2 then 16 else 0)
      ||| (if c.confirmHigh.get 3 then 32 else 0) ||| (if c.laneLow then 64 else 0)]
  | 2 => three c.approachMin ++ three c.approachMax ++ three c.exitMin ++ three c.exitMax ++ three c.blockedLimit
      ++ two c.reversalTolerance
  | 3 => three (c.outlets.get 0).fireOffset ++ three (c.outlets.get 0).confirmMin ++ three (c.outlets.get 0).confirmMax
      ++ two (c.outlets.get 0).extraWidth
  | 4 => three (c.outlets.get 1).fireOffset ++ three (c.outlets.get 1).confirmMin ++ three (c.outlets.get 1).confirmMax
      ++ two (c.outlets.get 1).extraWidth
  | 5 => three (c.outlets.get 2).fireOffset ++ three (c.outlets.get 2).confirmMin ++ three (c.outlets.get 2).confirmMax
      ++ two (c.outlets.get 2).extraWidth
  | 6 => three (c.outlets.get 3).fireOffset ++ three (c.outlets.get 3).confirmMin ++ three (c.outlets.get 3).confirmMax
      ++ two (c.outlets.get 3).extraWidth
  | 7 => two c.stallTime ++ [c.noticeTimeout, c.noticeRetries.setWidth 8]
  | _ => []

/-- The number of value bytes of group `g` (Table 11-7). -/
def groupSize (g : Nat) : Nat :=
  match g with
  | 0 => 4
  | 1 => 4
  | 2 => 17
  | 7 => 4
  | _ => 11

/-- The value at place `i` of the value bytes of group `g` is out of range (Table 10-3, R184). -/
def OutOfRange (g : Nat) (vals : List Byte) (i : Nat) : Prop :=
  match g, i with
  | 0, 0 => 4 < (vals.getD 0 0).toNat
  | 0, 1 => vals.getD 1 0 ≠ 0x00 ∧ (vals.getD 1 0).toNat / 4 ≠ 4
  | 0, 2 => 1 < (vals.getD 2 0).toNat
  | 0, 3 => 1 < (vals.getD 3 0).toNat
  | 1, 0 => 15 < (vals.getD 0 0).toNat
  | 1, 1 => 15 < (vals.getD 1 0).toNat
  | 1, 2 => 15 < (vals.getD 2 0).toNat
  | 2, 4 => vals.getD 12 0 = 0 ∧ vals.getD 13 0 = 0 ∧ vals.getD 14 0 = 0
  | 7, 1 => vals.getD 2 0 = 0
  | 7, 2 => 7 < (vals.getD 3 0).toNat
  | _, _ => False

/-- The value bytes of a group as CONFIG returns them after they were written: bit 7 of the polarity byte reads 0 (R184). -/
def keptBytes (g : Nat) (vals : List Byte) : List Byte :=
  if g = 1 then [vals.getD 0 0, vals.getD 1 0, vals.getD 2 0, vals.getD 3 0 &&& 0x7F] else vals

/-- One bank of BANK_STATUS (Table 11-6). -/
def bankBytes (s : State) (id : BankId) : List Byte :=
  [bankStateByte (bankOf s.route id).state, (bankPlan (bankOf s.route id)).getD 0, BitVec.ofNat 8 (references s id)]
  ++ (List.range 16).map (fun j =>
    (segByte ((bankOf s.route id).segs.toList.getD (4 * j) .blank) <<< 6)
    ||| (segByte ((bankOf s.route id).segs.toList.getD (4 * j + 1) .blank) <<< 4)
    ||| (segByte ((bankOf s.route id).segs.toList.getD (4 * j + 2) .blank) <<< 2)
    ||| segByte ((bankOf s.route id).segs.toList.getD (4 * j + 3) .blank))

/-- A word with bit i set where `f` holds of source i; the bits above are 0 (notes/assumptions/21.md). -/
def sourceBits (f : SourceState → Bool) (v : Vector SourceState 10) : BitVec 16 :=
  (List.finRange 10).foldl (fun w i => if f v[i] then w ||| (1#16 <<< i.val) else w) 0

/-- NOTICE_STATUS (R131, Table 11-6). -/
def noticeBytes (s : State) : List Byte :=
  [channelByte s.report.channel.state, s.report.channel.seq]
  ++ (match s.report.channel.outstanding with
      | some n => [n.seq, BitVec.ofNat 8 (allSources.idxOf n.source), n.count]
      | none => [0, 0, 0])
  ++ [s.report.channel.retry.setWidth 8,
      if s.report.channel.state = .idle then 0
      else if s.report.channel.slot.isSome then 1 else if s.report.channel.sending then 2 else 3]
  ++ (match s.report.channel.timer with
      | some a => two (BitVec.ofNat 16 (a.loaded - a.elapsed))
      | none => [0xFF, 0xFF])
  ++ two (sourceBits SourceState.pending s.report.sources)
  ++ two (sourceBits SourceState.masked s.report.sources &&& 0xFFFE)
  ++ s.report.sources.toList.map SourceState.count
  ++ [portsByte s.report.linkPorts, portsByte s.report.rxPorts]

/-- SENSOR_STATUS (R81, Table 11-6), the fields of a range of bits standing in its order from the low bit (notes/assumptions/7.md), the
bits that no field takes 0 (notes/assumptions/21.md). -/
def sensorBytes (s : State) : List Byte :=
  [(if s.sensor.entry.blocked then 1 else 0) ||| (if s.sensor.exit.blocked then 2 else 0)
    ||| (if (s.sensor.confirm.get 0).blocked then 4 else 0) ||| (if (s.sensor.confirm.get 1).blocked then 8 else 0)
    ||| (if (s.sensor.confirm.get 2).blocked then 16 else 0) ||| (if (s.sensor.confirm.get 3).blocked then 32 else 0),
   (if (s.sensor.lanes.get 0).full then 1 else 0) ||| (if (s.sensor.lanes.get 1).full then 2 else 0)
    ||| (if (s.sensor.lanes.get 2).full then 4 else 0) ||| (if (s.sensor.lanes.get 3).full then 8 else 0)]
  ++ four s.position.pos ++ four s.position.highWater

/-- One port's byte of PORT_STATUS (Table 11-6; notes/assumptions/7.md, bits 6 and 5: notes/assumptions/21.md). -/
def linkByte (l : LinkPort) : Byte :=
  (if l.up then 128 else 0) ||| (if l.flags.crc then 16 else 0) ||| (if l.flags.violation then 8 else 0)
  ||| (if l.flags.truncated then 4 else 0) ||| (if l.flags.oversize then 2 else 0) ||| (if l.flags.misdirected then 1 else 0)

/-- The schedule of an outlet as SCHEDULES gives it (Table 11-6; bits 7-2 of the state byte: notes/assumptions/21.md). -/
def scheduleBytes (o : Outlet) : List Byte :=
  [BitVec.ofNat 8 o.schedule.length, (if o.output then 1 else 0) ||| (if o.testFire.isSome then 2 else 0)]
  ++ two (BitVec.ofNat 16 (o.testFire.getD 0)) ++ o.schedule.flatMap (fun w => four w.opens ++ four w.closes)

/-- A note place of a snapshot record: ten bits, 0 where there is no note. -/
def notePlace (r : ItemRecord) (i : Nat) : BitVec 10 :=
  match r.trail[i]? with
  | some n => n.addr ++ BitVec.ofNat 4 (reasonCode n.reason)
  | none => 0

/-- Bytes 8 to 15 of a snapshot record, and the presence bit of its outlet or reason (Table 11-8). -/
def stageBits (r : ItemRecord) : BitVec 64 × BitVec 1 :=
  let flags : BitVec 4 := BitVec.ofBool r.flags.stray ++ BitVec.ofBool r.flags.adopted ++ BitVec.ofBool r.flags.forcePass
    ++ BitVec.ofBool r.flags.trailFull
  let dest : BitVec 12 := r.dest.getD 0
  match r.stage with
  | .expected => (0#24 ++ 0#16 ++ 0#4 ++ dest ++ 0#2 ++ flags ++ 0#2, 0)
  | .onEye p => ((p - r.arrival).setWidth 24 ++ 0#16 ++ 0#4 ++ dest ++ 1#2 ++ flags ++ 2#2, 0)
  | .boundOut p l k _ => ((p - r.arrival).setWidth 24 ++ l ++ BitVec.ofNat 4 k.val ++ dest ++ 2#2 ++ flags ++ 3#2, 1)
  | .boundThrough p l none => ((p - r.arrival).setWidth 24 ++ l ++ 0#4 ++ dest ++ 3#2 ++ flags ++ 3#2, 0)
  | .boundThrough p l (some why) =>
    ((p - r.arrival).setWidth 24 ++ l ++ BitVec.ofNat 4 (reasonCode why) ++ dest ++ 3#2 ++ flags ++ 3#2, 1)

/-- The 24 bytes of a snapshot record (Table 11-8). -/
def recordBytes (r : ItemRecord) : List Byte :=
  let w : BitVec 192 := r.tag ++ r.plan ++ r.hop ++ r.arrival ++ (stageBits r).1 ++ (stageBits r).2
    ++ BitVec.ofNat 3 r.trail.length
    ++ notePlace r 0 ++ notePlace r 1 ++ notePlace r 2 ++ notePlace r 3 ++ notePlace r 4 ++ notePlace r 5
  (List.range 24).map (fun j => w.extractLsb' (8 * (23 - j)) 8)

/-! ## Modes (chapter 6) -/

/-- The commands that may change the mode, its cause, the FAULT pin or the address (Figure 6-1's events): the cold resets, the counts with
the faults they bring and those faults' own commands, ENUMERATE, the four mode requests, and a relayed frame or an EOF on port U, either
of which may be one of those frames. -/
def ModeCommand (c : Instr) : Prop :=
  c = .powerOn ∨ c = .resetAsserted ∨ c = .forwardCount ∨ c = .backwardCount ∨ c = .reversal
  ∨ (∃ e, c = .blockedLimitReached e) ∨ (∃ v payload, c = .enumerate v payload) ∨ (∃ f, c = .downstreamRelay f)
  ∨ c = .symbolReceived .u .eof
  ∨ ∃ a n code args, requestOf c = some (a, n, code, args) ∧ (code = 0x20 ∨ code = 0x21 ∨ code = 0x22 ∨ code = 0x23)

/-- The frame that a command gives port U: a frame row's own, or the one in assembly that an EOF ends. -/
def frameGiven (c : Instr) (s : State) : Option Frame :=
  match c with
  | .enumerate v payload => some ⟨0x03, v, payload⟩
  | .item a payload => some ⟨0x01, a, payload⟩
  | .downstreamRelay f => some f
  | .symbolReceived .u .eof =>
    match s.links.u.framer with
    | .inFrame (k :: a :: n :: rest) => some ⟨k, a, rest.take n.toNat⟩
    | _ => none
  | _ => (requestOf c).map (fun (a, n, code, args) => ⟨0x02, a, n :: code :: args⟩)

/-- The command gives port U an ENUMERATE of 1..62 (R152). -/
def Enumerates (c : Instr) (s : State) : Prop :=
  ∃ f, frameGiven c s = some f ∧ f.kind = 0x03 ∧ 1 ≤ f.addr.toNat ∧ f.addr.toNat ≤ 62

/-- The command gives port U a REQUEST of a code, addressed to this station, or broadcast where the code is not RECOVER (R108, R111). -/
def Asks (code : Byte) (c : Instr) (s : State) : Prop :=
  ∃ f, frameGiven c s = some f ∧ f.kind = 0x02
    ∧ (f.addr = s.relay.address.setWidth 8 ∨ (f.addr = 63 ∧ code ≠ 0x22))
    ∧ ∃ num args, f.payload = num :: code :: args

/-- Condition `n` of R105. -/
def conditionHolds (c : StationConfig) (n : Nat) : Bool :=
  match n with
  | 1 => decide (1 ≤ c.outletsPresent.val)
  | 2 => decide (c.approachMin.toNat < c.approachMax.toNat)
  | 3 => decide (c.exitMin.toNat < c.exitMax.toNat)
  | 4 => outletIds.all (fun k => decide (c.outletsPresent.val ≤ k.val)
      || decide ((c.outlets.get k).fireOffset.toNat < (c.outlets.get k).confirmMin.toNat))
  | 5 => outletIds.all (fun k => decide (c.outletsPresent.val ≤ k.val)
      || decide ((c.outlets.get k).confirmMin.toNat < (c.outlets.get k).confirmMax.toNat))
  | 6 => (match c.strayPolicy with | .pass => true | .outlet k => decide (k.val < c.outletsPresent.val))
  | 7 => decide (c.entryFilter.toNat < c.blockedLimit.toNat) && decide (c.exitFilter.toNat < c.blockedLimit.toNat)
  | _ => true

/-- The configuration is consistent (R105). -/
abbrev Consistent (c : StationConfig) : Prop := ∀ n, 1 ≤ n → n ≤ 7 → conditionHolds c n = true

/-- Condition `n` is the first unmet, and `o` the outlet byte of the BAD_CONFIG reply: the first outlet at which condition 4 or 5 fails,
0xFF for the others (R105, Table 11-6). -/
abbrev FirstUnmet (c : StationConfig) (n : Nat) (o : Byte) : Prop :=
  1 ≤ n ∧ n ≤ 7 ∧ conditionHolds c n = false ∧ (∀ m, 1 ≤ m → m < n → conditionHolds c m = true)
  ∧ (n = 4 → ∃ k : OutletId, o = BitVec.ofNat 8 k.val ∧ k.val < c.outletsPresent.val
      ∧ (c.outlets.get k).confirmMin.toNat ≤ (c.outlets.get k).fireOffset.toNat
      ∧ ∀ j : OutletId, j.val < k.val → (c.outlets.get j).fireOffset.toNat < (c.outlets.get j).confirmMin.toNat)
  ∧ (n = 5 → ∃ k : OutletId, o = BitVec.ofNat 8 k.val ∧ k.val < c.outletsPresent.val
      ∧ (c.outlets.get k).confirmMax.toNat ≤ (c.outlets.get k).confirmMin.toNat
      ∧ ∀ j : OutletId, j.val < k.val → (c.outlets.get j).confirmMin.toNat < (c.outlets.get j).confirmMax.toNat)
  ∧ (n ≠ 4 → n ≠ 5 → o = 0xFF)

/-- Tracking started (R106, R64, R68, R71, R77). -/
def started (s : State) : State :=
  drive (queueNow s.tracking
    { s with
      control := { s.control with mode := .tracking }
      position := { s.position with highWater := s.position.pos }
      sensor := { s.sensor with
        entrySince := if s.sensor.entry.blocked then s.position.pos else s.sensor.entrySince
        exitSince := if s.sensor.exit.blocked then s.position.pos else s.sensor.exitSince }
      outlets := PerOutlet.ofFn (fun k => { s.outlets.get k with testFire := none }) })

/-- Tracking stopped (R107, R26, R50, R71). -/
def stopped (s : State) : State :=
  drive
    { s with
      control := { s.control with mode := .ready }
      tracking := []
      position := { s.position with watch := none }
      outlets := PerOutlet.ofFn (fun k => { s.outlets.get k with schedule := [] })
      report := flushed s }

/-- A warm reset (R114): what RESTART empties, ends and clears; everything else is kept. -/
def restarted (s : State) : State :=
  { s with
    control := ⟨.ready, .none, false⟩
    tracking := []
    position := { s.position with watch := none }
    outlets := ⟨⟨[], false, none⟩, ⟨[], false, none⟩, ⟨[], false, none⟩, ⟨[], false, none⟩⟩
    route :=
      { a := ⟨.empty, [], Vector.replicate 64 .blank⟩
        b := ⟨.empty, [], Vector.replicate 64 .blank⟩
        check := none }
    request := { s.request with cache := none }
    report :=
      { tallyQueue := []
        tallySeq := 0
        sources := s.report.sources.map (fun x => ⟨false, 0, x.masked⟩)
        linkPorts := ⟨false, false⟩
        rxPorts := ⟨false, false⟩
        channel := ⟨.idle, 0, none, 0, none, none, false⟩
        counters := Vector.replicate 33 0 } }

/-- The cold state (R116, Table 6-3, and the reset rules of each chapter), with RESET held or not: every value as the spec gives it, the
encoder pins and the eye and lane-full pins as they are, and the waiting commands kept (notes/assumptions/14.md). The model's own values
are the direction mark none (notes/assumptions/4.md), the framer of a DOWN port, DISCARD (notes/assumptions/12.md), and the blocked-since
position of a clear eye, 0 (notes/assumptions/19.md). -/
def coldState (held : Bool) (s : State) : State where
  resetHeld := held
  control := ⟨.transparent, .none, false⟩
  links :=
    { u := ⟨false, 0, 0, .discard, ⟨false, false, false, false, false⟩⟩
      d := ⟨false, 0, 0, .discard, ⟨false, false, false, false, false⟩⟩ }
  relay :=
    { address := 0
      downQueue := []
      upQueue := []
      handoffQueue := []
      uTurn := .relay
      dTurn := .relay
      txU := if held then .silent else .idle
      txD := if held then .silent else .idle }
  request := ⟨none, none⟩
  config :=
    { outletsPresent := 0
      strayPolicy := .pass
      terminal := false
      tallyPasses := false
      entryFilter := 2
      exitFilter := 2
      confirmFilter := 2
      entryHigh := false
      exitHigh := false
      confirmHigh := ⟨false, false, false, false⟩
      laneLow := false
      approachMin := 0
      approachMax := 0
      exitMin := 0
      exitMax := 0
      blockedLimit := 4096
      reversalTolerance := 64
      outlets := ⟨⟨0, 0, 0, 0⟩, ⟨0, 0, 0, 0⟩, ⟨0, 0, 0, 0⟩, ⟨0, 0, 0, 0⟩⟩
      stallTime := 0
      noticeTimeout := 20
      noticeRetries := 3 }
  position := ⟨s.position.encA, s.position.encB, 0, 0, .none, none⟩
  sensor :=
    { entry := ⟨s.sensor.entry.pin, !s.sensor.entry.pin, none⟩
      exit := ⟨s.sensor.exit.pin, !s.sensor.exit.pin, none⟩
      confirm := PerOutlet.ofFn (fun k => ⟨(s.sensor.confirm.get k).pin, !(s.sensor.confirm.get k).pin, none⟩)
      entrySince := 0
      exitSince := 0
      lanes := PerOutlet.ofFn (fun k => ⟨(s.sensor.lanes.get k).pin, (s.sensor.lanes.get k).pin⟩) }
  tracking := []
  route :=
    { a := ⟨.empty, [], Vector.replicate 64 .blank⟩
      b := ⟨.empty, [], Vector.replicate 64 .blank⟩
      check := none }
  outlets := ⟨⟨[], false, none⟩, ⟨[], false, none⟩, ⟨[], false, none⟩, ⟨[], false, none⟩⟩
  report :=
    { tallyQueue := []
      tallySeq := 0
      sources := (Vector.replicate 10 (⟨false, 0, true⟩ : SourceState)).set 0 ⟨false, 0, false⟩
      linkPorts := ⟨false, false⟩
      rxPorts := ⟨false, false⟩
      channel := ⟨.idle, 0, none, 0, none, none, false⟩
      counters := Vector.replicate 33 0 }
  pending := s.pending

/-- RESET released (R82, R135): the levels taken from the pins as they stand, no candidate, both blocked-since positions 0 (that
of a clear eye: notes/assumptions/19.md), both transmitters sending IDLE; the rest as it is. -/
def begun (s : State) : State :=
  { s with
    resetHeld := false
    relay := { s.relay with txU := .idle, txD := .idle }
    sensor :=
      { entry := ⟨s.sensor.entry.pin, decide (s.sensor.entry.pin = s.config.entryHigh), none⟩
        exit := ⟨s.sensor.exit.pin, decide (s.sensor.exit.pin = s.config.exitHigh), none⟩
        confirm := PerOutlet.ofFn (fun k =>
          ⟨(s.sensor.confirm.get k).pin, decide ((s.sensor.confirm.get k).pin = s.config.confirmHigh.get k), none⟩)
        entrySince := 0
        exitSince := 0
        lanes := PerOutlet.ofFn (fun k => ⟨(s.sensor.lanes.get k).pin, (s.sensor.lanes.get k).pin != s.config.laneLow⟩) } }

/-! ## Invariants -/

/-- Every list of the part stays within its capacity (R4, R6, R45, R117, R155, R156, R157). -/
structure WithinCapacity (s : State) : Prop where
  tracking : s.tracking.length ≤ 32
  trails : ∀ r ∈ s.tracking, r.trail.length ≤ 6
  schedules : ∀ k, (s.outlets.get k).schedule.length ≤ 8
  tallies : s.report.tallyQueue.length ≤ 16
  down : s.relay.downQueue.length ≤ 8
  up : s.relay.upQueue.length ≤ 8
  handoff : s.relay.handoffQueue.length ≤ 8

/-- The station's mode and what goes with it (R6, R45, R51, R64, R71, R103, R112, R149): outside TRACKING no record and no window is
held; the FAULT pin shows TRACK_LOST; a test fire runs in READY only, for 1 to 1000 ms; the stall watch is active exactly under R71's
conditions; the outputs are as R51 gives; the address is 0 exactly in TRANSPARENT and at most 62. -/
structure ModeDiscipline (s : State) : Prop where
  noRecords : s.control.mode ≠ .tracking → s.tracking = []
  noWindows : s.control.mode ≠ .tracking → ∀ k, (s.outlets.get k).schedule = []
  faultPin : s.control.fault = true ↔ s.control.mode = .trackLost
  testFires : ∀ k n, (s.outlets.get k).testFire = some n → s.control.mode = .ready ∧ 1 ≤ n ∧ n ≤ 1000
  watch : s.position.watch.isSome = true ↔ s.control.mode = .tracking ∧ s.tracking ≠ [] ∧ s.config.stallTime ≠ 0
  outputs : ∀ k, (s.outlets.get k).output = driven s k
  unaddressed : s.relay.address = 0 ↔ s.control.mode = .transparent
  addressRange : s.relay.address.toNat ≤ 62

/-- One bank (R83, R84, R90): canonical memory below 4096, well-formed entries, an EMPTY bank all-zero with every segment BLANK, a plan
number of 1..255 in every other state. -/
structure BankSound (b : Bank) : Prop where
  canonical : Memory.wf b.mem = true
  inRange : ∀ a, 4096 ≤ a → memRead b.mem a = 0
  entries : ∀ i, i < 1024 → entryWellFormed (memRead b.mem (4 * i)) (memRead b.mem (4 * i + 1)) = true
  blank : ∀ i : Fin 64, b.segs[i] = .blank → ∀ j, j < 64 → memRead b.mem (64 * i.val + j) = 0
  empty : b.state = .empty → b = ⟨.empty, [], Vector.replicate 64 .blank⟩
  plan : ∀ n, b.state = .loading n ∨ b.state = .committing n ∨ b.state = .committed n → n ≠ 0

/-- The route store (R83, R88): both banks sound, a bank COMMITTING exactly when its check is in flight, no plan number in both. -/
structure BanksSound (s : State) : Prop where
  a : BankSound s.route.a
  b : BankSound s.route.b
  checkA : (∃ n, s.route.a.state = .committing n) ↔ ∃ e m, s.route.check = some ⟨.a, e, m⟩
  checkB : (∃ n, s.route.b.state = .committing n) ↔ ∃ e m, s.route.check = some ⟨.b, e, m⟩
  plans : ∀ n, bankPlan s.route.a = some n → bankPlan s.route.b ≠ some n

/-- The order of the tracking queue (R5, R6): whatever follows an EXPECTED or ON_EYE record is EXPECTED, so the EXPECTED records stand
last and at most one record is ON_EYE, right before them; a record is ON_EYE only while the entry eye's stable level is blocked; every
candidate's level is the opposite of its eye's stable level (R74); outside TRACKING there is no record, and while RESET is held the
station is TRANSPARENT (R116). -/
structure QueueOrdered (s : State) : Prop where
  runs : ∀ pre r post, s.tracking = pre ++ r :: post → isExpected r = true ∨ isOnEye r = true → ∀ x ∈ post, isExpected x = true
  onEye : ∀ r ∈ s.tracking, isOnEye r = true → s.sensor.entry.blocked = true
  candidates : ∀ e c, (eyeOf s.sensor e).cand = some c → c.blocked = !(eyeOf s.sensor e).blocked
  outside : s.control.mode ≠ .tracking → s.tracking = []
  held : s.resetHeld = true → s.control.mode = .transparent

/-- The notice channel (Table 7-3, R120, R121, R123 to R127). -/
structure ChannelSound (s : State) : Prop where
  unmasked : s.report.sources[0].masked = false
  counts : ∀ i : Fin 10, s.report.sources[i].pending = true ↔ s.report.sources[i].count ≠ 0
  linkPorts : s.report.sources[7].pending = true ↔ s.report.linkPorts ≠ ⟨false, false⟩
  rxPorts : s.report.sources[8].pending = true ↔ s.report.rxPorts ≠ ⟨false, false⟩
  held : s.report.channel.state = .idle ↔ s.report.channel.outstanding = none
  idle : s.report.channel.state = .idle →
    s.report.channel.retry = 0 ∧ s.report.channel.timer = none ∧ s.report.channel.slot = none ∧ s.report.channel.sending = false
  quiet : s.report.channel.state = .quiet →
    s.report.channel.timer = none ∧ s.report.channel.slot = none ∧ s.report.channel.sending = false
  slot : ∀ f, s.report.channel.slot = some f → s.report.channel.timer = none ∧ s.report.channel.sending = false
    ∧ s.report.channel.outstanding.map Notice.frame = some f
  sending : s.report.channel.sending = true →
    s.report.channel.timer = none ∧ ∃ symbols, s.relay.txU = .sending .notice symbols
  timer : ∀ t, s.report.channel.timer = some t → t.elapsed < t.loaded ∧ t.loaded ≤ 255
  captured : ∀ n, s.report.channel.outstanding = some n → n.count ≠ 0
  timeout : s.config.noticeTimeout ≠ 0
  silent : s.resetHeld = true → s.relay.txU = .silent

/-- A frame in assembly holds what its length allows and never more than 85 bytes (R139, R143). -/
def assemblySound (bytes : List Byte) : Prop :=
  match bytes with
  | _ :: _ :: n :: rest => n.toNat ≤ 80 ∧ rest.length ≤ n.toNat + 2
  | _ => True

/-- One port (R136, R137, R139): DOWN it holds no frame, no violation run and an alignment run under 32; UP its violation run is under
4 and its frame in assembly is sound. The framer DISCARD and the violation run 0 of a DOWN port are the model's choice of
notes/assumptions/12.md. -/
structure LinkSound (l : LinkPort) : Prop where
  down : l.up = false → l.alignRun < 32 ∧ l.violationRun = 0 ∧ l.framer = .discard
  up : l.up = true → l.violationRun < 4 ∧ ∀ bytes, l.framer = .inFrame bytes → assemblySound bytes

/-- The link (R116, R136, R137, R143, R148, R156): both ports sound, no frame waits for a port D that is DOWN, and while RESET is held
both ports are DOWN and both transmitters silent. -/
structure LinksSound (s : State) : Prop where
  u : LinkSound s.links.u
  d : LinkSound s.links.d
  downQueue : s.links.d.up = false → s.relay.downQueue = []
  held : s.resetHeld = true →
    s.links.u.up = false ∧ s.links.d.up = false ∧ s.relay.txU = .silent ∧ s.relay.txD = .silent

end Sys2Proof.Safety
end

