-- ==== Sys2Proof/Certificates/Slice0/Obligations.lean ====
section
/-! DEFINITION. Certificates/Slice0/Obligations.lean: the statements for the provers, in the order of OBLIGATIONS.json. Each says of a
command what the rules of spec/ say it does, as the whole next state: what a record update does not name is unchanged. -/

open Sys2Proof Sys2Proof.Machine Sys2Proof.Safety

/-! ## The machine -/

/-- A step takes the command at the front of the queue and runs it with the queue's rest. -/
def Obligations.StepTakesFrontCommand : Prop :=
  ∀ (c : Instr) (rest : List Instr) (s : State), s.pending = c :: rest → step s = exec c { s with pending := rest }

/-- A step on an empty queue is one tick of the 1 ms time base: the model's choice (notes/assumptions/2.md) of when the ticks of R63, R72,
R125 and R126 fall. That with stall_time_ms 1 the tick that follows a count at the same moment reports STALL is notes/assumptions/20.md. -/
def Obligations.EmptyQueueTicks : Prop :=
  ∀ s : State, s.pending = [] → ∃ t, step s = .next t ∧
    t = { s with
      outlets := t.outlets
      position := { s.position with watch := t.position.watch }
      report := { s.report with sources := t.report.sources, channel := t.report.channel } } ∧
    (∀ k, (t.outlets.get k).schedule = (s.outlets.get k).schedule ∧ (t.outlets.get k).output = driven t k) ∧
    (∀ k, (s.outlets.get k).testFire = none → (t.outlets.get k).testFire = none) ∧
    (∀ k n, (s.outlets.get k).testFire = some n →
      (t.outlets.get k).testFire = if n ≤ 1 then none else some (n - 1)) ∧
    (s.position.watch = none → t.position.watch = none ∧ t.report.sources = s.report.sources) ∧
    (∀ w, s.position.watch = some w →
      (w.elapsed + 1 = s.config.stallTime.toNat → w.reported = false →
        t.position.watch = some ⟨w.elapsed + 1, true⟩ ∧ t.report.sources = (raised 9 s).report.sources) ∧
      (w.elapsed + 1 ≠ s.config.stallTime.toNat ∨ w.reported = true →
        t.position.watch = some ⟨w.elapsed + 1, w.reported⟩ ∧ t.report.sources = s.report.sources)) ∧
    (s.report.channel.timer = none → t.report.channel = s.report.channel) ∧
    (∀ a, s.report.channel.timer = some a →
      (a.elapsed + 1 < a.loaded →
        t.report.channel = { s.report.channel with timer := some ⟨a.loaded, a.elapsed + 1⟩ }) ∧
      (a.loaded ≤ a.elapsed + 1 → s.report.channel.retry.toNat < s.config.noticeRetries.toNat →
        t.report.channel = { s.report.channel with
          retry := s.report.channel.retry + 1
          timer := none
          slot := s.report.channel.outstanding.map Notice.frame }) ∧
      (a.loaded ≤ a.elapsed + 1 → s.config.noticeRetries.toNat ≤ s.report.channel.retry.toNat →
        t.report.channel = { s.report.channel with state := .quiet, timer := none }))

/-- No command stops the machine or touches the commands that wait. -/
def Obligations.EveryCommandCompletes : Prop :=
  ∀ (c : Instr) (s : State), ∃ t, exec c s = .next t ∧ t.pending = s.pending

/-! ## Invariants that every step keeps -/

/-- The state after reset meets every invariant stated below. Its pin levels are the model's choice of notes/assumptions/3.md, and the
framer DISCARD of its DOWN ports is that of notes/assumptions/12.md. -/
def Obligations.ResetMeetsInvariants : Prop :=
  WithinCapacity State.reset ∧ ModeDiscipline State.reset ∧ BanksSound State.reset ∧ QueueOrdered State.reset
  ∧ ChannelSound State.reset ∧ LinksSound State.reset

/-- Every step keeps every list within its capacity (R4, R6, R45, R117, R155, R156, R157). -/
def Obligations.StepKeepsCapacities : Prop :=
  ∀ s t : State, WithinCapacity s → step s = .next t → WithinCapacity t

/-- Every step keeps what belongs to the mode: the FAULT pin, the outputs, the queue, the schedules, the test fires, the stall watch and
the address (R6, R45, R51, R64, R71, R103, R112, R149). -/
def Obligations.StepKeepsModeDiscipline : Prop :=
  ∀ s t : State, ModeDiscipline s → step s = .next t → ModeDiscipline t

/-- Every step keeps the route store sound (R83, R84, R88, R90). -/
def Obligations.StepKeepsBanksSound : Prop :=
  ∀ s t : State, BanksSound s → step s = .next t → BanksSound t

/-- Every step keeps the order of the tracking queue and the one record ON_EYE (R5, R6, R74). -/
def Obligations.StepKeepsQueueOrder : Prop :=
  ∀ s t : State, QueueOrdered s → step s = .next t → QueueOrdered t

/-- Every step keeps the notice channel and the notice sources sound (Table 7-3, R120, R121, R123 to R127). -/
def Obligations.StepKeepsChannelSound : Prop :=
  ∀ s t : State, ChannelSound s → step s = .next t → ChannelSound t

/-- Every step keeps the ports and the downstream relay queue sound (R116, R136, R137, R143, R148, R156). That a DOWN port
holds its framer as DISCARD and its violation run as 0 is the model's choice of notes/assumptions/12.md. -/
def Obligations.StepKeepsLinksSound : Prop :=
  ∀ s t : State, LinksSound s → step s = .next t → LinksSound t

/-! ## Resets -/

/-- POWER_ON and RESET_ASSERTED leave the cold state, RESET_RELEASED ends it (R82, R116, Table 6-3); a RESET pin still asserted holds the
cold state through a power-on (notes/assumptions/14.md). At the release every eye and lane-full level is taken from its pin as it stands
then, under the polarities in force (the power-on ones in the cold state), without an edge, and both transmitters begin sending IDLE.
Three values of the cold state are the model's choice: the direction mark none (notes/assumptions/4.md), the framer DISCARD of a DOWN port
(notes/assumptions/12.md) and the blocked-since position 0 of a clear eye (notes/assumptions/19.md). -/
def Obligations.ResetsLeaveColdState : Prop :=
  ∀ s : State,
    (s.resetHeld = false → exec .powerOn s = .next (coldState false s)) ∧
    (s.resetHeld = true → exec .powerOn s = .next (coldState true s)) ∧
    exec .resetAsserted s = .next (coldState true s) ∧
    (∀ s₀, s = coldState true s₀ → exec .resetReleased s = .next (coldState false s₀)) ∧
    (s.resetHeld = true → exec .resetReleased s = .next (begun s)) ∧
    (s.resetHeld = false → exec .resetReleased s = .next s)

/-! ## The belt -/

/-- R66: the direction table of the encoder, and the double change that gives no count. -/
def Obligations.EncoderDirectionTable : Prop :=
  ∀ (s : State) (a b : Bool), s.position.encA = a → s.position.encB = b → s.resetHeld = false →
    (∃ t, exec .forwardCount s = .next t ∧ t.position.pos = s.position.pos + 1 ∧
      (t.position.encA, t.position.encB) =
        (match a, b with
         | false, false => (true, false)
         | true, false => (true, true)
         | true, true => (false, true)
         | false, true => (false, false))) ∧
    (∃ t, exec .backwardCount s = .next t ∧ t.position.pos = s.position.pos - 1 ∧
      (t.position.encA, t.position.encB) =
        (match a, b with
         | false, false => (false, true)
         | true, false => (false, false)
         | true, true => (true, false)
         | false, true => (true, true))) ∧
    exec .encoderDoubleChange s = .next { s with position := { s.position with encA := !a, encB := !b } }

/-- A count with no event of the count before it left to take: the position, the high-water position, the stall watch, the eye filters and
the outputs (R67, R68, R72, R74, R51); the encoder pair and the direction mark move with it. While RESET is held only the pair moves
(R82). The direction mark, the mark of a candidate whose edge waits to be taken, and what a count finds left to take are the model's choice
of notes/assumptions/4.md. -/
def Obligations.CountMovesBelt : Prop :=
  ∀ s : State,
    (s.resetHeld = false → nextDue s = none →
      (let pos := s.position.pos + 1
       let t : State :=
        { s with
          position :=
            { encA := !s.position.encB
              encB := s.position.encA
              pos := pos
              highWater :=
                if s.control.mode = .tracking ∧ AtOrPast pos s.position.highWater then pos else s.position.highWater
              last := .forward
              watch := s.position.watch.map (fun _ => ⟨0, false⟩) }
          sensor := filtersCarried s }
       exec .forwardCount s = .next (drive t)) ∧
      (let t : State :=
        { s with
          position :=
            { encA := s.position.encB
              encB := !s.position.encA
              pos := s.position.pos - 1
              highWater := s.position.highWater
              last := .backward
              watch := s.position.watch.map (fun _ => ⟨0, false⟩) }
          sensor := filtersCarried s }
       exec .backwardCount s = .next (drive t))) ∧
    (s.resetHeld = true →
      exec .forwardCount s =
        .next { s with position := { s.position with encA := !s.position.encB, encB := s.position.encA } } ∧
      exec .backwardCount s =
        .next { s with position := { s.position with encA := s.position.encB, encB := !s.position.encA } })

/-- The model's choice of notes/assumptions/4.md: a count first takes every event of the count before it that no command has taken. While
one is left, the count from `s` is the count from the state that this event's own command gives, until none is left. -/
def Obligations.CountTakesWhatIsDue : Prop :=
  ∀ s : State, s.resetHeld = false →
    (∀ d, nextDue s = some d →
      ∃ u, exec (dueCommand s d) s = .next u ∧ settle u = settle s
        ∧ exec .forwardCount s = exec .forwardCount u ∧ exec .backwardCount s = exec .backwardCount u) ∧
    (nextDue s = none → settle s = s) ∧
    nextDue (settle s) = none ∧ exec .forwardCount s = exec .forwardCount (settle s)
    ∧ exec .backwardCount s = exec .backwardCount (settle s)

/-- REVERSAL (R69, R109): in TRACKING, after a backward count that leaves the belt more than reversal_tolerance behind the high-water
position, the station is TRACK_LOST with one ABANDONED tally for each record; where the count raises nothing, nothing changes. -/
def Obligations.ReversalTakesStationOut : Prop :=
  ∀ s : State,
    (s.control.mode = .tracking → s.position.last = .backward →
      s.config.reversalTolerance.toNat < (s.position.highWater - s.position.pos).toNat →
      exec .reversal s = .next (trackLost .reversal s)) ∧
    (s.control.mode ≠ .tracking ∨ s.position.last ≠ .backward
      ∨ (s.position.highWater - s.position.pos).toNat ≤ s.config.reversalTolerance.toNat →
      exec .reversal s = .next s)

/-- BLOCKED_LIMIT_REACHED (R78, R109) of the entry and of the exit eye; where the count raises nothing, nothing changes. -/
def Obligations.BlockedLimitTakesStationOut : Prop :=
  ∀ s : State,
    (s.control.mode = .tracking → s.position.last = .forward → s.sensor.entry.blocked = true →
      s.position.pos = plus s.sensor.entrySince s.config.blockedLimit →
      exec (.blockedLimitReached .entry) s = .next (trackLost .entryBlocked s)) ∧
    (s.control.mode = .tracking → s.position.last = .forward → s.sensor.exit.blocked = true →
      s.position.pos = plus s.sensor.exitSince s.config.blockedLimit →
      exec (.blockedLimitReached .exit) s = .next (trackLost .exitBlocked s)) ∧
    (s.control.mode ≠ .tracking ∨ s.position.last ≠ .forward → ∀ e, exec (.blockedLimitReached e) s = .next s) ∧
    (s.sensor.entry.blocked = false ∨ s.position.pos ≠ plus s.sensor.entrySince s.config.blockedLimit →
      exec (.blockedLimitReached .entry) s = .next s) ∧
    (s.sensor.exit.blocked = false ∨ s.position.pos ≠ plus s.sensor.exitSince s.config.blockedLimit →
      exec (.blockedLimitReached .exit) s = .next s)

/-! ## The sensor inputs -/

/-- EYE_PIN_CHANGE (R73, R74): a level that differs from the stable level opens a candidate, stamped with the belt position, and keeps one
already held; the stable level discards it; no edge is given and nothing but the eye changes. An accepted edge that waits at the eye is
first taken as its own command takes it (notes/assumptions/4.md). While RESET is held only the pin changes (R82). -/
def Obligations.EyePinChangeOpensCandidate : Prop :=
  ∀ (e : EyeId) (high : Bool) (s : State),
    (s.resetHeld = false → (eyeOf s.sensor e).pin ≠ high → (∀ c, (eyeOf s.sensor e).cand = some c → c.ripe = false) →
      (let level := decide (high = eyeHigh s.config e)
       let x := eyeOf s.sensor e
       let cand : Option Candidate :=
        if level = x.blocked then none
        else
          match x.cand with
          | some c => some c
          | none => some ⟨level, s.position.pos, 0, decide (eyeFilter s.config e = 0)⟩
       exec (.eyePinChange e high) s = .next { s with sensor := setEye s.sensor e ⟨high, x.blocked, cand⟩ })) ∧
    (∀ blocked x, s.resetHeld = false → (eyeOf s.sensor e).pin ≠ high → Waits e blocked x s →
      ∃ u, exec (edgeCommandOf e blocked) s = .next u ∧ exec (.eyePinChange e high) s = exec (.eyePinChange e high) u
        ∧ (eyeOf u.sensor e).pin = (eyeOf s.sensor e).pin ∧ (eyeOf u.sensor e).cand = none) ∧
    ((eyeOf s.sensor e).pin = high → exec (.eyePinChange e high) s = .next s) ∧
    (s.resetHeld = true →
      exec (.eyePinChange e high) s =
        .next { s with sensor := setEye s.sensor e { eyeOf s.sensor e with pin := high } })

/-- LANE_FULL_CHANGE (R80): the held level of the lane follows its pin under the lane_full polarity; while RESET is held only the pin
changes (R82). -/
def Obligations.LaneFullFollowsPin : Prop :=
  ∀ (k : OutletId) (high : Bool) (s : State),
    (s.resetHeld = false →
      exec (.laneFullChange k high) s =
        .next { s with sensor := { s.sensor with
          lanes := s.sensor.lanes.set k ⟨high, if s.config.laneLow then !high else high⟩ } }) ∧
    (s.resetHeld = true →
      exec (.laneFullChange k high) s =
        .next { s with sensor := { s.sensor with
          lanes := s.sensor.lanes.set k ⟨high, (s.sensor.lanes.get k).full⟩ } })

/-- An accepted edge that the tracking unit does not act on turns its eye's stable level and does nothing else: any edge outside TRACKING
(R75), the trailing edges of the confirm and exit eyes (R55, R58), an entry trailing edge with no record ON_EYE (R21), a confirm edge of
an outlet that is not present (R55). The model's choice of notes/assumptions/5.md: an edge command of an eye at which no edge of that
level waits changes nothing. -/
def Obligations.EdgesThatOnlyTurnTheEye : Prop :=
  (∀ (e : EyeId) (blocked : Bool) (x : Pos) (s : State), Waits e blocked x s →
    (s.control.mode ≠ .tracking
      ∨ (e ≠ .entry ∧ blocked = false)
      ∨ (e = .entry ∧ blocked = false ∧ ∀ r ∈ s.tracking, isOnEye r = false)
      ∨ (∃ k, e = .confirm k ∧ s.config.outletsPresent.val ≤ k.val)) →
    exec (edgeCommandOf e blocked) s = .next (turned e blocked x s)) ∧
  (∀ (e : EyeId) (blocked : Bool) (s : State), (∀ x, ¬ Waits e blocked x s) → exec (edgeCommandOf e blocked) s = .next s)

/-! ## Entry matching (chapter 1) -/

/-- ENTRY_LEADING_EDGE, R16: the oldest EXPECTED record, whose approach window contains the stamp, becomes ON_EYE where it stands. -/
def Obligations.EntryEdgeMatchesOldestRecord : Prop :=
  ∀ (x : Pos) (pre post : List ItemRecord) (r : ItemRecord) (s : State),
    s.control.mode = .tracking → Waits .entry true x s → FirstOf isExpected pre r post s →
    AtOrPast x (plus r.arrival s.config.approachMin) → ¬ AtOrPast x (plus r.arrival s.config.approachMax) →
    exec .entryLeadingEdge s =
      .next (queueNow (pre ++ { r with stage := .onEye x } :: post) (turned .entry true x s))

/-- ENTRY_LEADING_EDGE, R16, R17, R18: with no EXPECTED record, or before the oldest one's window opens, a stray is created right before
the EXPECTED records, or dropped when the queue holds 32. -/
def Obligations.EntryEdgeMakesStray : Prop :=
  ∀ (x : Pos) (pre post : List ItemRecord) (s : State),
    s.control.mode = .tracking → Waits .entry true x s →
    s.tracking = pre ++ post → (∀ r ∈ pre, isExpected r = false) →
    (∀ r ∈ post.head?, isExpected r = true ∧ ¬ AtOrPast x (plus r.arrival s.config.approachMin)) →
    (s.tracking.length < 32 →
      exec .entryLeadingEdge s =
        .next (counted 14 (queueNow
          (pre ++ { tag := 0, dest := none, plan := 0, flags := ⟨true, false, false, false⟩, hop := 0, trail := [],
                    arrival := x, stage := .onEye x } :: post)
          (turned .entry true x s)))) ∧
    (32 ≤ s.tracking.length →
      exec .entryLeadingEdge s = .next (raised 2 (counted 15 (turned .entry true x s))))

/-- ENTRY_LEADING_EDGE, R16: a stamp at or past the close of the oldest EXPECTED record's window removes it as LOST, and the edge is judged
afresh on the queue without it. -/
def Obligations.EntryEdgeFindsRecordLost : Prop :=
  ∀ (x : Pos) (pre post : List ItemRecord) (r : ItemRecord) (s : State),
    s.control.mode = .tracking → Waits .entry true x s → FirstOf isExpected pre r post s →
    AtOrPast x (plus r.arrival s.config.approachMin) → AtOrPast x (plus r.arrival s.config.approachMax) →
    exec .entryLeadingEdge s =
      exec .entryLeadingEdge
        (tallied (tally s.relay.address 6 r.tag r.dest 0xFF 0 (plus r.arrival s.config.approachMax) none)
          (counted 5 (queueNow (pre ++ post) s)))

/-! ## Resolution (chapter 2) -/

/-- ENTRY_TRAILING_EDGE, R28 to R37, R41, R42: a record that steps 1 to 6 of Table 2-1 pass becomes BOUND_THROUGH with its measured
length, its pass reason and its note, or without a reason and without a note. -/
def Obligations.ResolutionPassesRecord : Prop :=
  ∀ (t p : Pos) (pre post : List ItemRecord) (r : ItemRecord) (s : State) (why : Option Reason),
    Resolves t p pre r post s → Passes (measuredAs p t) r s why →
    exec .entryTrailingEdge s =
      .next (queueNow (pre ++ passed s.relay.address p (measuredAs p t) why r :: post) (turned .entry false t s))

/-- ENTRY_TRAILING_EDGE, R39: a window that has begun makes the record BOUND_THROUGH with LATE; nothing is offered. -/
def Obligations.ResolutionLate : Prop :=
  ∀ (t p : Pos) (pre post : List ItemRecord) (r : ItemRecord) (s : State) (k : OutletId),
    Resolves t p pre r post s → Chooses (measuredAs p t) r s k → Late t (firingWindowOf s p (measuredAs p t) k) s →
    exec .entryTrailingEdge s =
      .next (queueNow (pre ++ passed s.relay.address p (measuredAs p t) (some .late) r :: post) (turned .entry false t s))

/-- ENTRY_TRAILING_EDGE, R47: an offer that meets no window of a schedule holding 8 is refused. -/
def Obligations.ScheduleRefusesNinthWindow : Prop :=
  ∀ (t p : Pos) (pre post : List ItemRecord) (r : ItemRecord) (s : State) (k : OutletId),
    Resolves t p pre r post s → Chooses (measuredAs p t) r s k → ¬ Late t (firingWindowOf s p (measuredAs p t) k) s →
    (∀ w ∈ (s.outlets.get k).schedule, ¬ Meets (firingWindowOf s p (measuredAs p t) k) w) →
    8 ≤ (s.outlets.get k).schedule.length →
    exec .entryTrailingEdge s =
      .next (raised 3
        (queueNow (pre ++ passed s.relay.address p (measuredAs p t) (some .schedFull) r :: post) (turned .entry false t s)))

/-- ENTRY_TRAILING_EDGE, R38, R40, R46: a window that is not late is inserted at its place in start order, or replaced, together with
every window it overlaps or touches, by the window from the earliest start to the latest end; the record is BOUND_OUT with its own
window, and the outputs follow. `a`, `m` and `b` are the windows before, met by and after the offer; `lo` and `hi` the earliest start and
the latest end. -/
def Obligations.ResolutionBindsOutlet : Prop :=
  ∀ (t p : Pos) (pre post : List ItemRecord) (r : ItemRecord) (s : State) (k : OutletId) (a m b : List Window) (lo hi : Pos),
    Resolves t p pre r post s → Chooses (measuredAs p t) r s k → ¬ Late t (firingWindowOf s p (measuredAs p t) k) s →
    (s.outlets.get k).schedule = a ++ m ++ b →
    (∀ w ∈ m, Meets (firingWindowOf s p (measuredAs p t) k) w) →
    (∀ w ∈ a ++ b, ¬ Meets (firingWindowOf s p (measuredAs p t) k) w) →
    (m ≠ [] ∨ (s.outlets.get k).schedule.length < 8) →
    lo ∈ (firingWindowOf s p (measuredAs p t) k :: m).map Window.opens →
    hi ∈ (firingWindowOf s p (measuredAs p t) k :: m).map Window.closes →
    (∀ w ∈ firingWindowOf s p (measuredAs p t) k :: m, AtOrPast w.opens lo ∧ AtOrPast hi w.closes) →
    (∀ w ∈ a, ¬ AtOrPast w.opens lo) → (∀ w ∈ b.head?, AtOrPast w.opens lo) →
    exec .entryTrailingEdge s =
      .next (drive (queueNow
        (pre ++ { r with stage := .boundOut p (measuredAs p t) k (firingWindowOf s p (measuredAs p t) k) } :: post)
        { turned .entry false t s with
          outlets := s.outlets.set k { s.outlets.get k with schedule := a ++ ⟨lo, hi⟩ :: b } }))

/-! ## Confirmation and exit (chapter 3) -/

/-- CONFIRM_LEADING_EDGE of a present outlet, R54, R55: the first BOUND_OUT record of the outlet whose confirm window contains the stamp is
DIVERTED; with none, the edge is a confirm stray. -/
def Obligations.ConfirmEdgeCreditsFirstRecord : Prop :=
  ∀ (k : OutletId) (x : Pos) (s : State),
    s.control.mode = .tracking → Waits (.confirm k) true x s → k.val < s.config.outletsPresent.val →
    (∀ (pre post : List ItemRecord) (r : ItemRecord), FirstOf (confirmCandidate s k x) pre r post s →
      exec (.confirmLeadingEdge k) s =
        .next (counted ⟨10 + k.val, by omega⟩
          (tallied (tally s.relay.address 1 r.tag r.dest (BitVec.ofNat 8 k.val) 0 x (lengthOf r))
            (counted 0 (queueNow (pre ++ post) (turned (.confirm k) true x s)))))) ∧
    ((∀ r ∈ s.tracking, confirmCandidate s k x r = false) →
      exec (.confirmLeadingEdge k) s = .next (counted 16 (turned (.confirm k) true x s)))

/-- EXIT_LEADING_EDGE on a BOUND_THROUGH record, R58, R59, R61, R62: handed on as PASSED, ended as END_OF_LINE at a terminal station, or
dropped as HANDOFF_DROPPED when the hand-off queue holds 8; with no candidate, the edge is an exit stray. -/
def Obligations.ExitEdgeHandsPassedRecordOn : Prop :=
  ∀ (x : Pos) (s : State), s.control.mode = .tracking → Waits .exit true x s →
    (∀ (pre post : List ItemRecord) (r : ItemRecord) (p : Pos) (len : BitVec 16) (why : Option Reason),
      FirstOf (exitCandidate s x) pre r post s → r.stage = .boundThrough p len why →
      (s.config.terminal = false → s.relay.handoffQueue.length < 8 → s.config.tallyPasses = true →
        exec .exitLeadingEdge s =
          .next (tallied (tally s.relay.address 4 r.tag r.dest 0xFF (passByte r) x (some len))
            (counted 3 (queueNow (pre ++ post) (handedOn (handoffItem r len) (turned .exit true x s)))))) ∧
      (s.config.terminal = false → s.relay.handoffQueue.length < 8 → s.config.tallyPasses = false →
        exec .exitLeadingEdge s =
          .next (counted 3 (queueNow (pre ++ post) (handedOn (handoffItem r len) (turned .exit true x s))))) ∧
      (s.config.terminal = false → 8 ≤ s.relay.handoffQueue.length →
        exec .exitLeadingEdge s =
          .next (tallied (tally s.relay.address 9 r.tag r.dest 0xFF 10 x (some len))
            (counted 8 (queueNow (pre ++ post) (raised 4 (turned .exit true x s)))))) ∧
      (s.config.terminal = true →
        exec .exitLeadingEdge s =
          .next (tallied (tally s.relay.address 8 r.tag r.dest 0xFF (passByte r) x (some len))
            (counted 7 (queueNow (pre ++ post) (turned .exit true x s)))))) ∧
    ((∀ r ∈ s.tracking, exitCandidate s x r = false) →
      exec .exitLeadingEdge s = .next (counted 17 (turned .exit true x s)))

/-- EXIT_LEADING_EDGE on a BOUND_OUT record, R58, R60, R61, R62: a missed divert, with its note, DIVERT_FAULT and its hand-off; dropped as
HANDOFF_DROPPED when the hand-off queue holds 8; not handed off at a terminal station. -/
def Obligations.ExitEdgeFindsDivertMissed : Prop :=
  ∀ (x : Pos) (pre post : List ItemRecord) (r : ItemRecord) (p : Pos) (len : BitVec 16) (k : OutletId) (w : Window) (s : State),
    s.control.mode = .tracking → Waits .exit true x s →
    FirstOf (exitCandidate s x) pre r post s → r.stage = .boundOut p len k w →
    (s.config.terminal = false → s.relay.handoffQueue.length < 8 →
      exec .exitLeadingEdge s =
        .next (tallied (tally s.relay.address 2 r.tag r.dest (BitVec.ofNat 8 k.val) 9 x (some len))
          (counted 1 (queueNow (pre ++ post)
            (handedOn (handoffItem (noted s.relay.address .divertMissed r) len) (raised 1 (turned .exit true x s))))))) ∧
    (s.config.terminal = false → 8 ≤ s.relay.handoffQueue.length →
      exec .exitLeadingEdge s =
        .next (tallied (tally s.relay.address 9 r.tag r.dest (BitVec.ofNat 8 k.val) 9 x (some len))
          (counted 8 (queueNow (pre ++ post) (raised 4 (raised 1 (turned .exit true x s))))))) ∧
    (s.config.terminal = true →
      exec .exitLeadingEdge s =
        .next (tallied (tally s.relay.address 2 r.tag r.dest (BitVec.ofNat 8 k.val) 9 x (some len))
          (counted 1 (queueNow (pre ++ post) (raised 1 (turned .exit true x s))))))

/-! ## Closes and window ends -/

/-- APPROACH_WINDOW_CLOSE, R19: the first EXPECTED record whose approach window closes where a forward count has brought the belt is LOST,
at its close position. -/
def Obligations.ApproachCloseLosesRecord : Prop :=
  ∀ (pre post : List ItemRecord) (r : ItemRecord) (s : State),
    s.control.mode = .tracking → s.position.last = .forward →
    FirstOf (fun x => isExpected x && decide (plus x.arrival s.config.approachMax = s.position.pos)) pre r post s →
    exec .approachWindowClose s =
      .next (tallied (tally s.relay.address 6 r.tag r.dest 0xFF 0 s.position.pos none)
        (counted 5 (queueNow (pre ++ post) s)))

/-- CONFIRM_WINDOW_CLOSE and EXIT_WINDOW_CLOSE, R53, R59, R60: a BOUND_OUT record at the later of its two closes is DIVERT_UNCONFIRMED, a
BOUND_THROUGH record at its exit close PASS_VANISHED; the close of the earlier window removes nothing. The model's
choices: that the close is taken while the belt stands where a forward count has brought it (notes/assumptions/4.md), that a command whose
close is not due changes nothing (notes/assumptions/5.md), what becomes of a record resolved when its exit close lay behind the belt: a
BOUND_THROUGH record stays, and for a BOUND_OUT record that close counts as closed (notes/assumptions/16.md), and that confirm closes at
one position are taken in queue order (notes/assumptions/18.md). -/
def Obligations.ClosesEndResolvedRecords : Prop :=
  ∀ (s : State), s.control.mode = .tracking → s.position.last = .forward →
    (∀ (pre post : List ItemRecord) (r : ItemRecord) (p : Pos) (len : BitVec 16) (k : OutletId) (w : Window),
      r.stage = .boundOut p len k w →
      (FirstOf (confirmEnds s) pre r post s →
        exec .confirmWindowClose s =
          .next (tallied (tally s.relay.address 3 r.tag r.dest (BitVec.ofNat 8 k.val) 0 s.position.pos (some len))
            (counted 2 (queueNow (pre ++ post) (raised 1 s))))) ∧
      (FirstOf (exitEnds s) pre r post s →
        exec .exitWindowClose s =
          .next (tallied (tally s.relay.address 3 r.tag r.dest (BitVec.ofNat 8 k.val) 0 s.position.pos (some len))
            (counted 2 (queueNow (pre ++ post) (raised 1 s)))))) ∧
    (∀ (pre post : List ItemRecord) (r : ItemRecord) (p : Pos) (len : BitVec 16) (why : Option Reason),
      r.stage = .boundThrough p len why → FirstOf (exitEnds s) pre r post s →
      exec .exitWindowClose s =
        .next (tallied (tally s.relay.address 5 r.tag r.dest 0xFF (passByte r) s.position.pos (some len))
          (counted 4 (queueNow (pre ++ post) s)))) ∧
    ((∀ r ∈ s.tracking, confirmEnds s r = false) → exec .confirmWindowClose s = .next s) ∧
    ((∀ r ∈ s.tracking, exitEnds s r = false) → exec .exitWindowClose s = .next s)

/-- FIRING_WINDOW_END, R48: the window that ends where a forward count has brought the belt leaves its schedule, the others keep their
order, and the outputs follow. -/
def Obligations.FiringWindowEndFreesPlace : Prop :=
  ∀ (k : OutletId) (a b : List Window) (o : Pos) (s : State),
    s.position.last = .forward → (s.outlets.get k).schedule = a ++ ⟨o, s.position.pos⟩ :: b →
    (∀ w ∈ a ++ b, w.closes ≠ s.position.pos) →
    exec (.firingWindowEnd k) s =
      .next (drive { s with outlets := s.outlets.set k { s.outlets.get k with schedule := a ++ b } })

/-! ## Time -/

/-- STALL (R72) and TEST_FIRE_END (R63), as the commands say that their time has come (notes/assumptions/5.md): an unreported stall is
reported once; a running test fire ends and its output goes off. Where no watch is active, the stall is reported already, or no test fire
runs, nothing changes. -/
def Obligations.StallAndTestFireEnd : Prop :=
  ∀ s : State,
    (∀ n, s.position.watch = some ⟨n, false⟩ →
      exec .stall s =
        .next (raised 9 { s with position := { s.position with watch := some ⟨s.config.stallTime.toNat, true⟩ } })) ∧
    (s.position.watch = none ∨ (∃ n, s.position.watch = some ⟨n, true⟩) → exec .stall s = .next s) ∧
    (∀ (k : OutletId) (n : Nat), (s.outlets.get k).testFire = some n →
      exec (.testFireEnd k) s =
        .next (drive { s with outlets := s.outlets.set k { s.outlets.get k with testFire := none } })) ∧
    (∀ k : OutletId, (s.outlets.get k).testFire = none → exec (.testFireEnd k) s = .next s)

/-! ## The notice channel -/

/-- ACK_TIMEOUT (R126): in OUTSTANDING the expiry of the running timer places the notice again while the retry count is under
notice_retries, and makes the channel QUIET otherwise; with no timer running or outside OUTSTANDING nothing changes. That the
command is the expiry whatever time has elapsed, and is no event where no timer runs, is notes/assumptions/5.md. -/
def Obligations.AckTimeoutRetriesOrQuiets : Prop :=
  ∀ s : State,
    (s.report.channel.state = .outstanding → s.report.channel.timer.isSome = true →
      (s.report.channel.retry.toNat < s.config.noticeRetries.toNat →
        exec .ackTimeout s =
          .next { s with report := { s.report with channel := { s.report.channel with
            retry := s.report.channel.retry + 1
            timer := none
            slot := s.report.channel.outstanding.map Notice.frame } } }) ∧
      (s.config.noticeRetries.toNat ≤ s.report.channel.retry.toNat →
        exec .ackTimeout s =
          .next { s with report := { s.report with channel := { s.report.channel with state := .quiet, timer := none } } })) ∧
    (s.report.channel.state ≠ .outstanding ∨ s.report.channel.timer = none → exec .ackTimeout s = .next s)

/-- NOTICE_CHOICE (R123, R124): with the channel IDLE the pending unmasked source of highest priority is captured into a notice, which is
built and placed; with none, or in OUTSTANDING or QUIET, no choice is made. -/
def Obligations.NoticeChoiceTakesHighestSource : Prop :=
  ∀ s : State,
    (∀ (i : Fin 10) (src : Source),
      s.report.channel.state = .idle → allSources[i.val]? = some src →
      s.report.sources[i].pending = true → s.report.sources[i].masked = false →
      (∀ j : Fin 10, j.val < i.val → s.report.sources[j].pending = false ∨ s.report.sources[j].masked = true) →
      (let seq := s.report.channel.seq
       let n := s.report.sources[i].count
       let detail : Byte :=
        match src with
        | .trackLost => causeByte s.control.cause
        | .linkChange => portsByte s.report.linkPorts
        | .rxError => portsByte s.report.rxPorts
        | _ => 0
       let f : Frame :=
        ⟨0x83, s.relay.address.setWidth 8,
          [seq, BitVec.ofNat 8 i.val, n, modeByte s.control.mode, BitVec.ofNat 8 s.tracking.length] ++ four s.position.pos
          ++ [detail]⟩
       exec .noticeChoice s =
        .next { s with report := { s.report with
          sources := s.report.sources.set i { s.report.sources[i] with pending := false, count := 0 }
          linkPorts := if src = .linkChange then ⟨false, false⟩ else s.report.linkPorts
          rxPorts := if src = .rxError then ⟨false, false⟩ else s.report.rxPorts
          channel := ⟨.outstanding, seq + 1, some ⟨seq, src, n, f⟩, 0, none, some f, false⟩ } })) ∧
    (s.report.channel.state ≠ .idle
      ∨ (∀ i : Fin 10, s.report.sources[i].pending = false ∨ s.report.sources[i].masked = true) →
      exec .noticeChoice s = .next s)

/-- ACK_NOTICE (R128) and SET_NOTICE_MASK (R122): a matching acknowledgement in OUTSTANDING or QUIET returns the channel to IDLE and
withdraws a waiting notice, any other is STALE; the nine maskable masks take the word's bits and the reply shows them with TRACK_LOST
unmasked. That bits 15 to 10 of the reply's mask word are sent as 0 is notes/assumptions/21.md. -/
def Obligations.NoticesAcknowledgedAndMasked : Prop :=
  (∀ (addr num q : Byte) (s : State), Takes addr num 1 s →
    (∀ n, s.report.channel.state ≠ .idle → s.report.channel.outstanding = some n →
      (n.seq = q →
        exec (.ackNotice addr num [q]) s =
          .next (answered num 0x30 0x00 []
            { heard .u s with report := { (heard .u s).report with
              channel := ⟨.idle, s.report.channel.seq, none, 0, none, none, false⟩ } })) ∧
      (n.seq ≠ q →
        exec (.ackNotice addr num [q]) s =
          .next (answered num 0x30 0x09 [channelByte s.report.channel.state, n.seq] (heard .u s)))) ∧
    (s.report.channel.state = .idle →
      exec (.ackNotice addr num [q]) s = .next (answered num 0x30 0x09 [0, 0] (heard .u s)))) ∧
  (∀ (addr num : Byte) (m : BitVec 16) (s : State), Takes addr num 2 s →
    exec (.setNoticeMask addr num (two m)) s =
      .next (answered num 0x31 0x00 (two (m &&& 0x03FE))
        { heard .u s with report := { (heard .u s).report with
          sources := Vector.ofFn (fun i : Fin 10 =>
            { (heard .u s).report.sources[i] with masked := decide (i.val ≠ 0) && m.getLsbD i.val }) } }))

/-! ## The link ports (chapter 8) -/

/-- PORT_UP (R136, R138) and PORT_DOWN (R137, R138, R142, R145, R156): a DOWN port comes UP in DISCARD with LINK_CHANGE; an UP port goes
DOWN at loss of signal or at the fourth violation in a row, each after its errors; port D then discards the downstream relay queue. Loss
of signal holds the alignment run of a DOWN port at 0. That PORT_UP stands for the whole alignment run, and that the fourth violation needs
a run of three before it and else changes nothing, is notes/assumptions/10.md; the framer and violation run of a DOWN port are
notes/assumptions/12.md. -/
def Obligations.PortsGoUpAndDown : Prop :=
  ∀ (p : Port) (s : State),
    (s.resetHeld = false → (s.links.get p).up = false → exec (.portUp p) s = .next (wentUp p s)) ∧
    (s.resetHeld = true ∨ (s.links.get p).up = true → exec (.portUp p) s = .next s) ∧
    (Hears p s → Assembles p s → exec (.portDown p .lossOfSignal) s = .next (wentDown p (rxErred p .truncated s))) ∧
    (Hears p s → ¬ Assembles p s → exec (.portDown p .lossOfSignal) s = .next (wentDown p s)) ∧
    (s.resetHeld = false → (s.links.get p).up = false →
      exec (.portDown p .lossOfSignal) s =
        .next { s with links := s.links.set p { s.links.get p with alignRun := 0 } }) ∧
    (Hears p s → (s.links.get p).violationRun = 3 → Assembles p s →
      exec (.portDown p .fourthViolation) s = .next (wentDown p (rxErred p .truncated s))) ∧
    (Hears p s → (s.links.get p).violationRun = 3 → ¬ Assembles p s →
      exec (.portDown p .fourthViolation) s = .next (wentDown p (rxErred p .violation s))) ∧
    (¬ Hears p s ∨ (s.links.get p).violationRun ≠ 3 → exec (.portDown p .fourthViolation) s = .next s) ∧
    (s.resetHeld = true → ∀ cause, exec (.portDown p cause) s = .next s)

/-- RECEIVE_ERROR (R137, R140, R142, R143, R145, R146): the error is counted, flagged and raised, and the framer and the violation run
stand as the symbol that shows the error leaves them; a violation error is one only with no frame in assembly, and a data or EOF symbol
shows one only in BETWEEN (notes/assumptions/11.md). Nothing is taken on a port that is DOWN or while RESET is held. The
framer DISCARD and the violation run 0 of the port that the fourth violation takes DOWN are notes/assumptions/12.md. -/
def Obligations.ReceiveErrorsTaken : Prop :=
  ∀ (p : Port) (s : State),
    (Hears p s →
      exec (.receiveError p .crc) s = .next (framed p .between 0 (rxErred p .crc s)) ∧
      exec (.receiveError p .misdirected) s = .next (framed p .between 0 (rxErred p .misdirected s)) ∧
      exec (.receiveError p .oversize) s = .next (framed p .discard 0 (rxErred p .oversize s)) ∧
      exec (.receiveError p (.truncated .violation)) s = .next (framed p .discard 1 (rxErred p .truncated s)) ∧
      exec (.receiveError p (.truncated .idle)) s = .next (framed p .between 0 (rxErred p .truncated s)) ∧
      exec (.receiveError p (.truncated .sof)) s = .next (framed p (.inFrame []) 0 (rxErred p .truncated s)) ∧
      exec (.receiveError p (.truncated .eof)) s = .next (framed p .between 0 (rxErred p .truncated s)) ∧
      (¬ Assembles p s → (s.links.get p).violationRun < 3 →
        exec (.receiveError p (.violation .violation)) s =
          .next (framed p .discard ((s.links.get p).violationRun + 1) (rxErred p .violation s))) ∧
      (¬ Assembles p s → (s.links.get p).violationRun = 3 →
        exec (.receiveError p (.violation .violation)) s = .next (wentDown p (rxErred p .violation s))) ∧
      (Assembles p s → exec (.receiveError p (.violation .violation)) s = .next s) ∧
      ((s.links.get p).framer = .between →
        exec (.receiveError p (.violation .data)) s = .next (framed p .discard 0 (rxErred p .violation s)) ∧
        exec (.receiveError p (.violation .eof)) s = .next (framed p .between 0 (rxErred p .violation s))) ∧
      ((s.links.get p).framer ≠ .between →
        exec (.receiveError p (.violation .data)) s = .next s ∧ exec (.receiveError p (.violation .eof)) s = .next s)) ∧
    (¬ Hears p s → ∀ e, exec (.receiveError p e) s = .next s)

/-- SYMBOL_RECEIVED (R136, R137, R139 to R146, Table 8-2): every symbol in every state of the port and of the framer, but for the EOF that
completes a good frame. The framer DISCARD and the violation run 0 of the port that the fourth violation takes DOWN are the model's choice
of notes/assumptions/12.md, the alignment run held at 32 of a port that comes UP that of notes/assumptions/13.md. -/
def Obligations.SymbolTable : Prop :=
  ∀ (p : Port) (s : State),
    (s.resetHeld = true → ∀ x, exec (.symbolReceived p x) s = .next s) ∧
    (s.resetHeld = false → (s.links.get p).up = false →
      exec (.symbolReceived p .violation) s =
        .next { s with links := s.links.set p { s.links.get p with alignRun := 0 } } ∧
      (∀ x, x ≠ .violation → (s.links.get p).alignRun < 31 →
        exec (.symbolReceived p x) s =
          .next { s with links := s.links.set p { s.links.get p with alignRun := (s.links.get p).alignRun + 1 } }) ∧
      (∀ x, x ≠ .violation → 31 ≤ (s.links.get p).alignRun → exec (.symbolReceived p x) s = .next (wentUp p s))) ∧
    (Hears p s →
      (∀ b, (s.links.get p).framer = .between →
        exec (.symbolReceived p (.data b)) s = .next (framed p .discard 0 (rxErred p .violation s)) ∧
        exec (.symbolReceived p .idle) s = .next (framed p .between 0 s) ∧
        exec (.symbolReceived p .eof) s = .next (framed p .between 0 (rxErred p .violation s))) ∧
      (∀ b, (s.links.get p).framer = .discard →
        exec (.symbolReceived p (.data b)) s = .next (framed p .discard 0 s) ∧
        exec (.symbolReceived p .idle) s = .next (framed p .between 0 s) ∧
        exec (.symbolReceived p .eof) s = .next (framed p .between 0 s)) ∧
      (¬ Assembles p s → exec (.symbolReceived p .sof) s = .next (framed p (.inFrame []) 0 s)) ∧
      (∀ bytes, (s.links.get p).framer = .inFrame bytes →
        (∀ x, Overfull bytes x →
          exec (.symbolReceived p (.data x)) s = .next (framed p .discard 0 (rxErred p .oversize s))) ∧
        (∀ x, ¬ Overfull bytes x →
          exec (.symbolReceived p (.data x)) s = .next (framed p (.inFrame (bytes ++ [x])) 0 s)) ∧
        exec (.symbolReceived p .idle) s = .next (framed p .between 0 (rxErred p .truncated s)) ∧
        exec (.symbolReceived p .sof) s = .next (framed p (.inFrame []) 0 (rxErred p .truncated s)) ∧
        (Incomplete bytes → exec (.symbolReceived p .eof) s = .next (framed p .between 0 (rxErred p .truncated s))) ∧
        (∀ k a n payload crc, bytes = k :: a :: n :: (payload ++ crc) → payload.length = n.toNat → crc.length = 2 →
          crc ≠ two (crc16 (k :: a :: n :: payload)) →
          exec (.symbolReceived p .eof) s = .next (framed p .between 0 (rxErred p .crc s))) ∧
        (∀ k a n payload, bytes = k :: a :: n :: (payload ++ two (crc16 (k :: a :: n :: payload))) → payload.length = n.toNat →
          (k.getLsbD 7 = true ↔ p = .u) →
          exec (.symbolReceived p .eof) s = .next (framed p .between 0 (rxErred p .misdirected s)))) ∧
      (∀ n, (s.links.get p).violationRun = n →
        (n < 3 → Assembles p s →
          exec (.symbolReceived p .violation) s = .next (framed p .discard (n + 1) (rxErred p .truncated s))) ∧
        (n < 3 → ¬ Assembles p s →
          exec (.symbolReceived p .violation) s = .next (framed p .discard (n + 1) (rxErred p .violation s))) ∧
        (3 ≤ n → Assembles p s → exec (.symbolReceived p .violation) s = .next (wentDown p (rxErred p .truncated s))) ∧
        (3 ≤ n → ¬ Assembles p s → exec (.symbolReceived p .violation) s = .next (wentDown p (rxErred p .violation s)))))

/-- The symbols that a transmitter sends for a frame (R135), received one by one on an UP port, whatever its framer held, are the frame's
arrival: what the frame's relay command does at once is what its symbols do (R139, R140, R141, R144). A frame of the other class is
misdirected in both. -/
def Obligations.SymbolsMakeFrame : Prop :=
  ∀ (p : Port) (f : Frame) (s : State), Hears p s → f.payload.length ≤ 80 →
    ∃ t, Received p (wire f) s t ∧
      exec (match p with | .u => .downstreamRelay f | .d => .upstreamRelay f) s = .next t

/-! ## ITEM frames -/

/-- Table 11-3 read back: an ITEM built of fields that the station holds is read as those fields, a STRAY one with tag 0, plan number 0 and
no destination; and a payload is refused exactly where R178 says. -/
def Obligations.ItemReadBack : Prop :=
  (∀ (tag : BitVec 16) (dest : Option (BitVec 12)) (plan : Byte) (flags : Flags) (hop : Byte) (len : BitVec 16)
      (lenPresent : Bool) (trail : List Note),
    trail.length ≤ 6 → (∀ n ∈ trail, NoteFits n) → (flags.stray = true ∨ dest.isSome = true) →
    parseItem (item tag dest plan flags hop len lenPresent trail).payload =
      some
        { tag := if flags.stray then 0 else tag
          dest := if flags.stray then none else dest
          plan := if flags.stray then 0 else plan
          flags := flags
          hop := hop
          len := len
          lenPresent := lenPresent
          trail := trail }) ∧
  (∀ payload : List Byte, parseItem payload = none ↔ RefusedItem payload)

/-- ITEM in TRACKING (R9, R12, R13, R14, R178): with no EXPECTED record and a stray on the eye, an unstrayed ITEM is adopted into it; else
it is admitted as EXPECTED at the tail; else, with 32 records held, refused. That a record carrying both STRAY and ADOPTED is adopted into
is notes/assumptions/17.md. -/
def Obligations.ItemTracked : Prop :=
  ∀ (addr : Byte) (payload : List Byte) (i : ItemFields) (s : State),
    Hears .u s → s.control.mode = .tracking → payload.length ≤ 80 → parseItem payload = some i →
    (∀ (pre post : List ItemRecord) (r : ItemRecord),
      (∀ x ∈ s.tracking, isExpected x = false) → FirstOf isOnEye pre r post s → r.flags.stray = true → i.flags.stray = false →
      exec (.item addr payload) s =
        .next (queueNow
          (pre ++ { r with
            tag := i.tag
            dest := i.dest
            plan := i.plan
            flags := ⟨false, true, i.flags.forcePass, r.flags.trailFull || i.flags.trailFull⟩
            hop := i.hop
            trail := i.trail } :: post)
          (heard .u s))) ∧
    ((∃ x ∈ s.tracking, isExpected x = true) ∨ i.flags.stray = true ∨ (∀ r ∈ s.tracking, isOnEye r = true → r.flags.stray = false) →
      (s.tracking.length < 32 →
        exec (.item addr payload) s =
          .next (queueNow
            (s.tracking ++ [{ tag := i.tag, dest := i.dest, plan := i.plan, flags := i.flags, hop := i.hop, trail := i.trail,
                              arrival := s.position.pos, stage := .expected }])
            (heard .u s))) ∧
      (32 ≤ s.tracking.length →
        exec (.item addr payload) s =
          .next (counted 9 (raised 2
            (tallied (tally s.relay.address 10 i.tag i.dest 0xFF 0 s.position.pos none) (heard .u s))))))

/-- ITEM outside TRACKING (R9, R10, R11, R157, R178): in READY and TRACK_LOST relayed out of service with its note and one more hop, dropped
when the hand-off queue holds 8, ended at a terminal station; a refused ITEM is dropped in every addressed mode; TRANSPARENT relays it
unread. -/
def Obligations.ItemOutOfService : Prop :=
  ∀ (addr : Byte) (payload : List Byte) (s : State), Hears .u s → payload.length ≤ 80 →
    (∀ i, s.control.mode ≠ .transparent → s.control.mode ≠ .tracking → parseItem payload = some i →
      (s.config.terminal = false → s.relay.handoffQueue.length < 8 →
        exec (.item addr payload) s =
          .next (handedOn
            (item i.tag i.dest i.plan (noteOn s.relay.address .outOfService i.trail i.flags).2 (hopped i.hop) i.len i.lenPresent
              (noteOn s.relay.address .outOfService i.trail i.flags).1)
            (heard .u s))) ∧
      (s.config.terminal = false → 8 ≤ s.relay.handoffQueue.length →
        exec (.item addr payload) s =
          .next (counted 8 (raised 4
            (tallied (tally s.relay.address 9 i.tag i.dest 0xFF 10 s.position.pos none) (heard .u s))))) ∧
      (s.config.terminal = true →
        exec (.item addr payload) s =
          .next (counted 7 (tallied (tally s.relay.address 8 i.tag i.dest 0xFF 8 s.position.pos none) (heard .u s))))) ∧
    (s.control.mode ≠ .transparent → RefusedItem payload → exec (.item addr payload) s = .next (heard .u s)) ∧
    (s.control.mode = .transparent → exec (.item addr payload) s = .next (relayedDown ⟨0x01, addr, payload⟩ (heard .u s)))

/-! ## Relay and transmission (chapter 9) -/

/-- ENUMERATE (R103, R149, R152, R156): a value 1..62 becomes the address, empties the reply cache, brings a TRANSPARENT station to READY
and goes on as v + 1; 63 is relayed unchanged; 0 and 64 and over are dropped and counted. -/
def Obligations.EnumerateTaken : Prop :=
  ∀ (v : Byte) (payload : List Byte) (s : State), Hears .u s → payload.length ≤ 80 →
    (v = 0 ∨ 64 ≤ v.toNat → exec (.enumerate v payload) s = .next (counted 32 (heard .u s))) ∧
    (v = 63 → exec (.enumerate v payload) s = .next (relayedDown ⟨0x03, 63, payload⟩ (heard .u s))) ∧
    (1 ≤ v.toNat → v.toNat ≤ 62 →
      (let t : State :=
        { heard .u s with
          relay := { s.relay with address := v.setWidth 6 }
          request := { s.request with cache := none } }
       (s.control.mode ≠ .transparent →
        exec (.enumerate v payload) s = .next (relayedDown ⟨0x03, v + 1, payload⟩ t)) ∧
       (s.control.mode = .transparent →
        exec (.enumerate v payload) s =
          .next (relayedDown ⟨0x03, v + 1, payload⟩
            (drive { t with
              control := { s.control with mode := .ready }
              position := { s.position with watch := none } })))))

/-- DOWNSTREAM_RELAY and UPSTREAM_RELAY (R143, R144, R150, R151, R154, R155, R156): a frame of port U that the station does not consume
joins the downstream relay queue, every good frame of port D the upstream relay queue; a full queue drops it and counts it. The rows'
frames are taken as what they are: a frame of the wrong class is misdirected, one over 80 bytes oversize, and a port that is DOWN or held
hears nothing: the model's choice of notes/assumptions/9.md. -/
def Obligations.FramesRelayed : Prop :=
  ∀ (f : Frame) (s : State),
    (Hears .u s → f.payload.length ≤ 80 → f.kind.getLsbD 7 = false →
      ((s.control.mode = .transparent ∧ f.kind ≠ 0x03)
        ∨ (f.kind ≠ 0x01 ∧ f.kind ≠ 0x02 ∧ f.kind ≠ 0x03)
        ∨ (f.kind = 0x02 ∧ f.addr ≠ s.relay.address.setWidth 8 ∧ f.addr ≠ 63)) →
      exec (.downstreamRelay f) s = .next (relayedDown f (heard .u s))) ∧
    (Hears .d s → f.payload.length ≤ 80 → f.kind.getLsbD 7 = true →
      (s.relay.upQueue.length < 8 →
        exec (.upstreamRelay f) s =
          .next { heard .d s with relay := { s.relay with upQueue := s.relay.upQueue ++ [f] } }) ∧
      (8 ≤ s.relay.upQueue.length → exec (.upstreamRelay f) s = .next (raised 6 (counted 28 (heard .d s))))) ∧
    (Hears .u s →
      (80 < f.payload.length → exec (.downstreamRelay f) s = .next (rxErred .u .oversize (heard .u s))) ∧
      (f.payload.length ≤ 80 → f.kind.getLsbD 7 = true →
        exec (.downstreamRelay f) s = .next (rxErred .u .misdirected (heard .u s)))) ∧
    (Hears .d s →
      (80 < f.payload.length → exec (.upstreamRelay f) s = .next (rxErred .d .oversize (heard .d s))) ∧
      (f.payload.length ≤ 80 → f.kind.getLsbD 7 = false →
        exec (.upstreamRelay f) s = .next (rxErred .d .misdirected (heard .d s)))) ∧
    (¬ Hears .u s → exec (.downstreamRelay f) s = .next s) ∧
    (¬ Hears .d s → exec (.upstreamRelay f) s = .next s) ∧
    (∀ c addr num code args, requestOf c = some (addr, num, code, args) →
      exec c s = exec (.downstreamRelay ⟨0x02, addr, num :: code :: args⟩) s) ∧
    (∀ addr payload, exec (.item addr payload) s = exec (.downstreamRelay ⟨0x01, addr, payload⟩) s) ∧
    (∀ v payload, exec (.enumerate v payload) s = exec (.downstreamRelay ⟨0x03, v, payload⟩) s)

/-- U_TRANSMIT_GRANT (R135, R158, R159, R160) and D_TRANSMIT_GRANT (R135, R158, R161): at a free boundary of an UP port the reply slot comes
first, then the notice slot, then the head of the queue whose turn it is or of the only one that holds a frame; the frame leaves its place
as its symbols begin. -/
def Obligations.GrantsFollowOrder : Prop :=
  ∀ s : State,
    (s.links.u.up = true → s.relay.txU = .idle →
      (∀ f, s.request.slot = some f →
        exec .uTransmitGrant s =
          .next { s with
            request := { s.request with slot := none }
            relay := { s.relay with txU := .sending .reply (wire f) } }) ∧
      (∀ f, s.request.slot = none → s.report.channel.slot = some f →
        exec .uTransmitGrant s =
          .next { s with
            report := { s.report with channel := { s.report.channel with slot := none, sending := true } }
            relay := { s.relay with txU := .sending .notice (wire f) } }) ∧
      (∀ f rest, s.request.slot = none → s.report.channel.slot = none → s.relay.upQueue = f :: rest →
        (s.report.tallyQueue = [] ∨ s.relay.uTurn = .relay) →
        exec .uTransmitGrant s =
          .next { s with
            relay := { s.relay with upQueue := rest, uTurn := .tally, txU := .sending .upRelay (wire f) } }) ∧
      (∀ f rest, s.request.slot = none → s.report.channel.slot = none → s.report.tallyQueue = f :: rest →
        (s.relay.upQueue = [] ∨ s.relay.uTurn = .tally) →
        exec .uTransmitGrant s =
          .next { s with
            report := { s.report with tallyQueue := rest }
            relay := { s.relay with uTurn := .relay, txU := .sending .tally (wire f) } }) ∧
      (s.request.slot = none → s.report.channel.slot = none → s.relay.upQueue = [] → s.report.tallyQueue = [] →
        exec .uTransmitGrant s = .next s)) ∧
    (s.links.u.up = false ∨ s.relay.txU ≠ .idle → exec .uTransmitGrant s = .next s) ∧
    (s.links.d.up = true → s.relay.txD = .idle →
      (∀ f rest, s.relay.downQueue = f :: rest → (s.relay.handoffQueue = [] ∨ s.relay.dTurn = .relay) →
        exec .dTransmitGrant s =
          .next { s with
            relay := { s.relay with downQueue := rest, dTurn := .handoff, txD := .sending .downRelay (wire f) } }) ∧
      (∀ f rest, s.relay.handoffQueue = f :: rest → (s.relay.downQueue = [] ∨ s.relay.dTurn = .handoff) →
        exec .dTransmitGrant s =
          .next { s with
            relay := { s.relay with handoffQueue := rest, dTurn := .relay, txD := .sending .handoff (wire f) } }) ∧
      (s.relay.downQueue = [] → s.relay.handoffQueue = [] → exec .dTransmitGrant s = .next s)) ∧
    (s.links.d.up = false ∨ s.relay.txD ≠ .idle → exec .dTransmitGrant s = .next s)

/-- SENDING_COMPLETE (R125, R130, R135): the transmitter returns to IDLE; the completion of the outstanding notice starts its ack timer with
notice_timeout_ms, that of a notice withdrawn in the meantime does not; with no frame being sent nothing changes, the command being
no event there (notes/assumptions/5.md). -/
def Obligations.SendingCompletes : Prop :=
  ∀ s : State,
    (∀ symbols, s.relay.txU = .sending .notice symbols →
      (s.report.channel.sending = true →
        exec (.sendingComplete .u) s =
          .next { s with
            relay := { s.relay with txU := .idle }
            report := { s.report with channel := { s.report.channel with
              timer := some ⟨s.config.noticeTimeout.toNat, 0⟩
              sending := false } } }) ∧
      (s.report.channel.sending = false →
        exec (.sendingComplete .u) s = .next { s with relay := { s.relay with txU := .idle } })) ∧
    (∀ src symbols, s.relay.txU = .sending src symbols → src ≠ .notice →
      exec (.sendingComplete .u) s = .next { s with relay := { s.relay with txU := .idle } }) ∧
    (∀ src symbols, s.relay.txD = .sending src symbols →
      exec (.sendingComplete .d) s = .next { s with relay := { s.relay with txD := .idle } }) ∧
    (s.relay.txU = .idle ∨ s.relay.txU = .silent → exec (.sendingComplete .u) s = .next s) ∧
    (s.relay.txD = .idle ∨ s.relay.txD = .silent → exec (.sendingComplete .d) s = .next s)

/-! ## Requests (chapter 10) -/

/-- R96, R164, R165, R166, R168: the tests before the owning rule, for every REQUEST row: the hold-off, the bank check, the reply cache,
the code and the argument length. A REQUEST of fewer than two payload bytes is dropped without a reply. -/
def Obligations.RequestPath : Prop :=
  (∀ (addr : Byte) (payload : List Byte) (s : State), OwnRequest addr payload.length s → payload.length < 2 →
    exec (.downstreamRelay ⟨0x02, addr, payload⟩) s = .next (heard .u s)) ∧
  ∀ (c : Instr) (addr num code : Byte) (args : List Byte) (s : State),
    requestOf c = some (addr, num, code, args) → OwnRequest addr args.length s →
    (s.request.slot.isSome = true → code ≠ 0x23 → exec c s = .next (heard .u s)) ∧
    (∀ k, s.request.slot = none → s.route.check = some k →
      (code = 0x12 → num = k.number → exec c s = .next (heard .u s)) ∧
      (code ≠ 0x23 → code ≠ 0x12 ∨ num ≠ k.number → exec c s = .next (busied num code (heard .u s)))) ∧
    (code = 0x23 ∨ (s.request.slot = none ∧ s.route.check = none) →
      (∀ f, s.request.cache = some (num, f) →
        exec c s = .next { heard .u s with request := { s.request with slot := some f } }) ∧
      ((∀ f, s.request.cache ≠ some (num, f)) →
        (argumentBytes code = none → code ≠ 0x02 → exec c s = .next (answered num code 0x0A [] (heard .u s))) ∧
        (∀ n, argumentBytes code = some n → args.length ≠ n → exec c s = .next (answered num code 0x05 [] (heard .u s)))))

/-- R108, R151, R164, R170: a broadcast REQUEST is relayed, and START_TRACKING, STOP_TRACKING and RESTART are executed without a reply where
they would be addressed; any other code, and a REQUEST of fewer than two payload bytes, is ignored and counted. That the relay comes first
is notes/assumptions/6.md. -/
def Obligations.BroadcastRequests : Prop :=
  (∀ (payload : List Byte) (s : State), payload.length < 2 → Hears .u s → s.control.mode ≠ .transparent →
    s.relay.address.toNat ≤ 62 →
    exec (.downstreamRelay ⟨0x02, 63, payload⟩) s = .next (counted 31 (relayedDown ⟨0x02, 63, payload⟩ (heard .u s)))) ∧
  ∀ (c : Instr) (num code : Byte) (args : List Byte) (s : State),
    requestOf c = some (63, num, code, args) → Hears .u s → args.length ≤ 78 →
    s.control.mode ≠ .transparent → s.relay.address.toNat ≤ 62 →
    (let t := relayedDown ⟨0x02, 63, num :: code :: args⟩ (heard .u s)
     (code = 0x20 →
      (s.control.mode = .ready → Consistent s.config → exec c s = .next (started t)) ∧
      (s.control.mode ≠ .ready ∨ ¬ Consistent s.config → exec c s = .next t)) ∧
     (code = 0x21 →
      (s.control.mode = .tracking → exec c s = .next (stopped t)) ∧
      (s.control.mode ≠ .tracking → exec c s = .next t)) ∧
     (code = 0x23 → exec c s = .next (restarted t)) ∧
     (code ≠ 0x20 → code ≠ 0x21 → code ≠ 0x23 → exec c s = .next (counted 31 t)))

/-- READ_OBJECT of the objects read whole (R81, R100, R131, R147, R171, R172, R180, Table 11-6): index 0 and count 1 return the object as it
stands, anything else is BAD_ARG; reading PORT_STATUS clears the error flags of both ports. The places of bits that a table
gives as a range are notes/assumptions/7.md; that bits to which Table 11-6 gives no field are sent as 0 is notes/assumptions/21.md. -/
def Obligations.WholeObjectsRead : Prop :=
  ∀ (addr num i1 i0 n : Byte) (s : State), Takes addr num 4 s →
    (let t := heard .u s
     (i1 = 0 → i0 = 0 → n = 1 →
      exec (.ident addr num [i1, i0, n]) s = .next (answered num 0x01 0x00 ([0, 0, 0, 1] ++ identBytes s) t) ∧
      exec (.config addr num [i1, i0, n]) s =
        .next (answered num 0x01 0x00 ([1, 0, 0, 1] ++ (List.range 8).flatMap (groupBytes s.config)) t) ∧
      exec (.bankStatus addr num [i1, i0, n]) s =
        .next (answered num 0x01 0x00 ([2, 0, 0, 1] ++ bankBytes s .a ++ bankBytes s .b) t) ∧
      exec (.portStatus addr num [i1, i0, n]) s =
        .next (answered num 0x01 0x00 [7, 0, 0, 1, linkByte t.links.u, linkByte t.links.d]
          { t with links :=
              ⟨{ t.links.u with flags := ⟨false, false, false, false, false⟩ },
               { t.links.d with flags := ⟨false, false, false, false, false⟩ }⟩ }) ∧
      exec (.noticeStatus addr num [i1, i0, n]) s = .next (answered num 0x01 0x00 ([8, 0, 0, 1] ++ noticeBytes t) t) ∧
      exec (.sensorStatus addr num [i1, i0, n]) s = .next (answered num 0x01 0x00 ([9, 0, 0, 1] ++ sensorBytes s) t)) ∧
     (i1 ≠ 0 ∨ i0 ≠ 0 ∨ n ≠ 1 →
      ∀ c : Instr, c ∈ [Instr.ident addr num [i1, i0, n], .config addr num [i1, i0, n], .bankStatus addr num [i1, i0, n],
          .portStatus addr num [i1, i0, n], .noticeStatus addr num [i1, i0, n], .sensorStatus addr num [i1, i0, n]] →
        exec c s = .next (answered num 0x01 0x05 [] t)))

/-- READ_OBJECT of ROUTE_A, ROUTE_B, QUEUE_SNAPSHOT and SCHEDULES (R45, R100, R101, R171, R173, R181, R183, Table 11-8): the entries of a
range, the records that there are from an index on under the queue's depth, and one outlet's schedule; a range that the space does not
have is BAD_ARG. The places of a record's flag bits are notes/assumptions/7.md; that bits 7 to 2 of the state byte of a schedule are sent
as 0 is notes/assumptions/21.md. -/
def Obligations.RangesRead : Prop :=
  ∀ (addr num i1 i0 n : Byte) (s : State), Takes addr num 4 s →
    (let t := heard .u s
     let index := 256 * i1.toNat + i0.toNat
     (∀ id : BankId,
      (1 ≤ n.toNat → n.toNat ≤ 16 → index + n.toNat ≤ 1024 →
        exec (.readRoute id addr num [i1, i0, n]) s =
          .next (answered num 0x01 0x00
            ([3 + bankByte id, i1, i0, n]
              ++ (List.range (4 * n.toNat)).map (fun j => memRead (bankOf s.route id).mem (4 * index + j))) t)) ∧
      (n = 0 ∨ 16 < n.toNat ∨ 1024 < index + n.toNat →
        exec (.readRoute id addr num [i1, i0, n]) s = .next (answered num 0x01 0x05 [] t))) ∧
     ((∀ r ∈ s.tracking, r.trail.length ≤ 6) → index < 32 → 1 ≤ n.toNat → n.toNat ≤ 3 →
      exec (.queueSnapshot addr num [i1, i0, n]) s =
        .next (answered num 0x01 0x00
          ([5, i1, i0, BitVec.ofNat 8 ((s.tracking.drop index).take n.toNat).length, BitVec.ofNat 8 s.tracking.length]
            ++ ((s.tracking.drop index).take n.toNat).flatMap recordBytes) t)) ∧
     (32 ≤ index ∨ n = 0 ∨ 3 < n.toNat →
      exec (.queueSnapshot addr num [i1, i0, n]) s = .next (answered num 0x01 0x05 [] t)) ∧
     (∀ k : OutletId, index = k.val → n = 1 →
      exec (.schedules addr num [i1, i0, n]) s =
        .next (answered num 0x01 0x00 ([6, i1, i0, 1] ++ scheduleBytes (s.outlets.get k)) t)) ∧
     (4 ≤ index ∨ n ≠ 1 → exec (.schedules addr num [i1, i0, n]) s = .next (answered num 0x01 0x05 [] t)))

/-- WRITE_CONFIG (R76, R80, R174, R176, R184): in READY and TRACK_LOST a group of the right length with every value in range is in force at
once: CONFIG reads it back, the other groups as before; the lane levels are read under the polarity, and an eye whose polarity is new takes
its level from its pin without an edge. An accepted edge that waits at an eye whose polarity or filter length changes is first taken
(notes/assumptions/4.md); every other eye is as before. Else MODE, BAD_ARG (no argument byte among its causes), or BAD_ARG with the first
field out of range, and nothing is written. That confirm eye k has bit 2 + k of the EYES polarity byte is notes/assumptions/7.md. -/
def Obligations.ConfigWritten : Prop :=
  (∀ (addr num : Byte) (s : State), Takes addr num 0 s →
    (s.control.mode ≠ .ready → s.control.mode ≠ .trackLost →
      exec (.writeConfig addr num []) s = .next (answered num 0x02 0x02 [modeByte s.control.mode] (heard .u s))) ∧
    (s.control.mode = .ready ∨ s.control.mode = .trackLost →
      exec (.writeConfig addr num []) s = .next (answered num 0x02 0x05 [] (heard .u s)))) ∧
  ∀ (addr num g : Byte) (vals : List Byte) (s : State), Takes addr num (vals.length + 1) s →
    (let t := heard .u s
     (s.control.mode ≠ .ready → s.control.mode ≠ .trackLost →
      exec (.writeConfig addr num (g :: vals)) s = .next (answered num 0x02 0x02 [modeByte s.control.mode] t)) ∧
     (s.control.mode = .ready ∨ s.control.mode = .trackLost →
      (7 < g.toNat ∨ vals.length ≠ groupSize g.toNat →
        exec (.writeConfig addr num (g :: vals)) s = .next (answered num 0x02 0x05 [] t)) ∧
      (g.toNat ≤ 7 → vals.length = groupSize g.toNat →
        (∀ i, OutOfRange g.toNat vals i → (∀ j, j < i → ¬ OutOfRange g.toNat vals j) →
          exec (.writeConfig addr num (g :: vals)) s = .next (answered num 0x02 0x05 [BitVec.ofNat 8 i] t)) ∧
        ((∀ i, ¬ OutOfRange g.toNat vals i) →
          ∃ c u,
            exec (.writeConfig addr num (g :: vals)) s = .next (answered num 0x02 0x00 [] { t with config := c, sensor := u }) ∧
            groupBytes c g.toNat = keptBytes g.toNat vals ∧
            (∀ j, j ≠ g.toNat → groupBytes c j = groupBytes s.config j) ∧
            (∀ k, u.lanes.get k = ⟨(s.sensor.lanes.get k).pin, (s.sensor.lanes.get k).pin != c.laneLow⟩) ∧
            (∀ e, eyeHigh c e = eyeHigh s.config e → eyeOf u e = eyeOf (edgeTakenFor c e s).sensor e) ∧
            (∀ e, eyeHigh c e ≠ eyeHigh s.config e →
              eyeOf u e = ⟨(eyeOf s.sensor e).pin, decide ((eyeOf s.sensor e).pin = eyeHigh c e), none⟩) ∧
            u.entrySince = (if c.entryHigh ≠ s.config.entryHigh ∧ u.entry.blocked = true then s.position.pos
              else (edgeTakenFor c .entry s).sensor.entrySince) ∧
            u.exitSince = (if c.exitHigh ≠ s.config.exitHigh ∧ u.exit.blocked = true then s.position.pos
              else (edgeTakenFor c .exit s).sensor.exitSince)))))

/-- READ_COUNTERS (R132, R133): the values of a range of 1 to 16 counters, cleared in the same event when bit 0 of the clear flag is set;
any other range is BAD_ARG. -/
def Obligations.CountersRead : Prop :=
  ∀ (addr num first n clear : Byte) (s : State), Takes addr num 3 s →
    (let t := heard .u s
     (1 ≤ n.toNat → n.toNat ≤ 16 → first.toNat + n.toNat ≤ 33 →
      exec (.readCounters addr num [first, n, clear]) s =
        .next (answered num 0x03 0x00
          ([first, n] ++ ((t.report.counters.toList.drop first.toNat).take n.toNat).flatMap (fun w => four w))
          { t with report := { t.report with
            counters := Vector.ofFn (fun i : Fin 33 =>
              if clear.getLsbD 0 = true ∧ first.toNat ≤ i.val ∧ i.val < first.toNat + n.toNat then 0
              else t.report.counters[i]) } })) ∧
     (n = 0 ∨ 16 < n.toNat ∨ 33 < first.toNat + n.toNat →
      exec (.readCounters addr num [first, n, clear]) s = .next (answered num 0x03 0x05 [] t)))

/-! ## Route plans (chapter 5) -/

/-- OPEN_PLAN (R88) and DROP_PLAN (R91): BAD_ARG, IN_USE and DUP_PLAN in their order; else the bank is LOADING under its plan number, or
EMPTY, with every entry all-zero and every segment BLANK. -/
def Obligations.PlansOpenedAndDropped : Prop :=
  (∀ (addr num bank plan : Byte) (s : State), Takes addr num 2 s →
    (let t := heard .u s
     (1 < bank.toNat ∨ plan = 0 →
      exec (.openPlan addr num [bank, plan]) s = .next (answered num 0x10 0x05 [] t)) ∧
     (∀ id : BankId, bank = bankByte id → plan ≠ 0 →
      (references s id ≠ 0 →
        exec (.openPlan addr num [bank, plan]) s =
          .next (answered num 0x10 0x03 [BitVec.ofNat 8 (references s id)] t)) ∧
      (references s id = 0 → bankPlan (bankOf s.route (otherBank id)) = some plan →
        exec (.openPlan addr num [bank, plan]) s = .next (answered num 0x10 0x08 [] t)) ∧
      (references s id = 0 → bankPlan (bankOf s.route (otherBank id)) ≠ some plan →
        exec (.openPlan addr num [bank, plan]) s =
          .next (answered num 0x10 0x00 []
            { t with route := setBank s.route id ⟨.loading plan, [], Vector.replicate 64 .blank⟩ }))))) ∧
  (∀ (addr num bank : Byte) (s : State), Takes addr num 1 s →
    (let t := heard .u s
     (1 < bank.toNat → exec (.dropPlan addr num [bank]) s = .next (answered num 0x13 0x05 [] t)) ∧
     (∀ id : BankId, bank = bankByte id →
      (references s id ≠ 0 →
        exec (.dropPlan addr num [bank]) s = .next (answered num 0x13 0x03 [BitVec.ofNat 8 (references s id)] t)) ∧
      (references s id = 0 →
        exec (.dropPlan addr num [bank]) s =
          .next (answered num 0x13 0x00 []
            { t with route := setBank s.route id ⟨.empty, [], Vector.replicate 64 .blank⟩ })))))

/-- WRITE_SEGMENT (R84, R90, R183): sixteen well-formed entries written to a segment of a LOADING bank are what the bank then reads there,
every other byte as before, and the segment is WRITTEN, or REWRITTEN at its second write and after; BANK_STATE and BAD_ARG write
nothing. The read-back is of a bank whose entry store has its canonical form, as StepKeepsBanksSound keeps it; the request completes
whatever the store. -/
def Obligations.SegmentWritten : Prop :=
  ∀ (addr num bank seg : Byte) (entries : List Byte) (s : State), Takes addr num 66 s → entries.length = 64 →
    (let t := heard .u s
     (1 < bank.toNat ∨ 64 ≤ seg.toNat →
      exec (.writeSegment addr num (bank :: seg :: entries)) s = .next (answered num 0x11 0x05 [] t)) ∧
     (∀ (id : BankId) (i : Fin 64), bank = bankByte id → seg.toNat = i.val →
      ((∀ plan, (bankOf s.route id).state ≠ .loading plan) →
        exec (.writeSegment addr num (bank :: seg :: entries)) s =
          .next (answered num 0x11 0x04 [bankStateByte (bankOf s.route id).state] t)) ∧
      (∀ plan, (bankOf s.route id).state = .loading plan →
        ((∃ j, j < 16 ∧ entryWellFormed (entries.getD (4 * j) 0) (entries.getD (4 * j + 1) 0) = false) →
          exec (.writeSegment addr num (bank :: seg :: entries)) s = .next (answered num 0x11 0x05 [] t)) ∧
        ((∀ j, j < 16 → entryWellFormed (entries.getD (4 * j) 0) (entries.getD (4 * j + 1) 0) = true) →
          ∃ m,
            (let now : SegState := if (bankOf s.route id).segs[i] = .blank then .written else .rewritten
             exec (.writeSegment addr num (bank :: seg :: entries)) s =
              .next (answered num 0x11 0x00 [segByte now]
                { t with route := setBank s.route id ⟨.loading plan, m, (bankOf s.route id).segs.set i now⟩ })) ∧
            (Memory.wf (bankOf s.route id).mem = true →
              Memory.wf m = true ∧
              ∀ a, memRead m a =
                if 64 * i.val ≤ a ∧ a < 64 * i.val + 64 then entries.getD (a - 64 * i.val) 0
                else memRead (bankOf s.route id).mem a)))))

/-- COMMIT_PLAN (R92, R93) and BANK_CHECK_COMPLETION (R94, R95): the request on a LOADING bank starts the check and places no reply; its
completion commits the bank on a match of the CRC-16 of the 1024 entries, or returns it to LOADING with the computed value, and places the
reply under the held number. That the completion comes when it is commanded (the duration of the check is not in the state), and is no
event with no check in flight, is notes/assumptions/5.md and 15.md. -/
def Obligations.PlanCommitted : Prop :=
  (∀ (addr num bank : Byte) (expected : BitVec 16) (s : State), Takes addr num 3 s →
    (let t := heard .u s
     (1 < bank.toNat →
      exec (.commitPlan addr num (bank :: two expected)) s = .next (answered num 0x12 0x05 [] t)) ∧
     (∀ id : BankId, bank = bankByte id →
      ((∀ plan, (bankOf s.route id).state ≠ .loading plan) →
        exec (.commitPlan addr num (bank :: two expected)) s =
          .next (answered num 0x12 0x04 [bankStateByte (bankOf s.route id).state] t)) ∧
      (∀ plan, (bankOf s.route id).state = .loading plan →
        exec (.commitPlan addr num (bank :: two expected)) s =
          .next { t with route :=
            { setBank s.route id { bankOf s.route id with state := .committing plan } with
              check := some ⟨id, expected, num⟩ } })))) ∧
  (∀ (id : BankId) (expected : BitVec 16) (num plan : Byte) (s : State),
    s.route.check = some ⟨id, expected, num⟩ → (bankOf s.route id).state = .committing plan →
    (let bank := bankOf s.route id
     let computed := crc16 ((List.range 4096).map (memRead bank.mem))
     (computed = expected →
      exec .bankCheckCompletion s =
        .next (answered num 0x12 0x00
          [BitVec.ofNat 8 (bank.segs.toList.count .blank), BitVec.ofNat 8 (bank.segs.toList.count .rewritten)]
          { s with route := { setBank s.route id { bank with state := .committed plan } with check := none } })) ∧
     (computed ≠ expected →
      exec .bankCheckCompletion s =
        .next (answered num 0x12 0x07 (two computed)
          { s with route := { setBank s.route id { bank with state := .loading plan } with check := none } })))) ∧
  (∀ s : State, s.route.check = none → exec .bankCheckCompletion s = .next s)

/-! ## Modes (chapter 6) -/

/-- START_TRACKING (R104, R105, R106): MODE outside READY, BAD_CONFIG with the first unmet condition, else tracking starts. -/
def Obligations.TrackingStarts : Prop :=
  ∀ (addr num : Byte) (s : State), Takes addr num 0 s →
    (s.control.mode ≠ .ready →
      exec (.startTracking addr num []) s = .next (answered num 0x20 0x02 [modeByte s.control.mode] (heard .u s))) ∧
    (∀ n o, s.control.mode = .ready → FirstUnmet s.config n o →
      exec (.startTracking addr num []) s = .next (answered num 0x20 0x06 [BitVec.ofNat 8 n, o] (heard .u s))) ∧
    (s.control.mode = .ready → Consistent s.config →
      exec (.startTracking addr num []) s = .next (answered num 0x20 0x00 [] (started (heard .u s))))

/-- STOP_TRACKING (R26, R107), RECOVER (R111) and RESTART (R114, R115, R165): each DONE with its effect in the modes that Table 10-1 gives it,
MODE in the others; RESTART is held off by neither an unsent reply nor a bank check. -/
def Obligations.TrackingEnds : Prop :=
  ∀ (addr num : Byte) (s : State),
    (Takes addr num 0 s →
      (s.control.mode = .tracking →
        exec (.stopTracking addr num []) s = .next (answered num 0x21 0x00 [] (stopped (heard .u s)))) ∧
      (s.control.mode ≠ .tracking →
        exec (.stopTracking addr num []) s = .next (answered num 0x21 0x02 [modeByte s.control.mode] (heard .u s))) ∧
      (s.control.mode = .trackLost →
        exec (.recover addr num []) s =
          .next (answered num 0x22 0x00 []
            (drive { heard .u s with
              control := ⟨.ready, s.control.cause, false⟩
              position := { s.position with watch := none } }))) ∧
      (s.control.mode ≠ .trackLost →
        exec (.recover addr num []) s = .next (answered num 0x22 0x02 [modeByte s.control.mode] (heard .u s)))) ∧
    (OwnRequest addr 0 s → (∀ f, s.request.cache ≠ some (num, f)) →
      exec (.restart addr num []) s = .next (answered num 0x23 0x00 [] (restarted (heard .u s))))

/-- Figure 6-1 as a whole (R102, R103, R104, R107, R109, R111, R114, R149): no other command changes the mode, the track-lost cause, the
FAULT pin or the station address. TRANSPARENT is entered by the cold resets; READY by an ENUMERATE of 1..62 from TRANSPARENT, a
STOP_TRACKING from TRACKING, a RECOVER from TRACK_LOST and a RESTART; TRACKING by a START_TRACKING from READY with a consistent
configuration; TRACK_LOST from TRACKING by REVERSAL or BLOCKED_LIMIT_REACHED, or by a count that takes such a fault of the count before it
(notes/assumptions/4.md). -/
def Obligations.ModeTransitions : Prop :=
  ∀ (c : Instr) (s t : State), exec c s = .next t →
    (¬ ModeCommand c → t.control = s.control ∧ t.relay.address = s.relay.address) ∧
    (t.control.mode = .transparent → s.control.mode = .transparent ∨ c = .powerOn ∨ c = .resetAsserted) ∧
    (t.control.mode = .ready → s.control.mode = .ready
      ∨ (s.control.mode = .transparent ∧ Enumerates c s)
      ∨ (s.control.mode = .tracking ∧ Asks 0x21 c s)
      ∨ (s.control.mode = .trackLost ∧ Asks 0x22 c s)
      ∨ (s.control.mode ≠ .transparent ∧ Asks 0x23 c s)) ∧
    (t.control.mode = .tracking → s.control.mode = .tracking
      ∨ (s.control.mode = .ready ∧ Consistent s.config ∧ Asks 0x20 c s)) ∧
    (t.control.mode = .trackLost → s.control.mode = .trackLost
      ∨ (s.control.mode = .tracking
        ∧ (c = .reversal ∨ (∃ e, c = .blockedLimitReached e) ∨ c = .forwardCount ∨ c = .backwardCount)))

/-! ## Test fires -/

/-- FIRE_TEST (R63): MODE outside READY, BAD_ARG for an outlet that is not present or a duration outside 1..1000, BUSY without caching while
that outlet's test fire runs, else the test fire runs and its output is on. -/
def Obligations.FireTestStarts : Prop :=
  ∀ (addr num o : Byte) (ms : BitVec 16) (s : State), Takes addr num 3 s →
    (s.control.mode ≠ .ready →
      exec (.fireTest addr num (o :: two ms)) s = .next (answered num 0x40 0x02 [modeByte s.control.mode] (heard .u s))) ∧
    (s.control.mode = .ready →
      (3 < o.toNat ∨ s.config.outletsPresent.val ≤ o.toNat ∨ ms = 0 ∨ 1000 < ms.toNat →
        exec (.fireTest addr num (o :: two ms)) s = .next (answered num 0x40 0x05 [] (heard .u s))) ∧
      (∀ k : OutletId, o.toNat = k.val → k.val < s.config.outletsPresent.val → 1 ≤ ms.toNat → ms.toNat ≤ 1000 →
        ((s.outlets.get k).testFire.isSome = true →
          exec (.fireTest addr num (o :: two ms)) s = .next (busied num 0x40 (heard .u s))) ∧
        ((s.outlets.get k).testFire = none →
          exec (.fireTest addr num (o :: two ms)) s =
            .next (answered num 0x40 0x00 []
              (drive { heard .u s with outlets := s.outlets.set k { s.outlets.get k with testFire := some ms.toNat } })))))
end

