-- ==== Sys2Proof/Laws/State.lean ====
section
/-! SUPPORT. Laws/State.lean: what each operation over the state leaves as it was, one lemma per field and operation, so that no later
proof unfolds a record update. -/

namespace Sys2Proof.Machine

/-! ## bumpBy -/

@[simp] theorem bumpBy_resetHeld (c : Counter) (n : Nat) (s : State) : (bumpBy c n s).resetHeld = s.resetHeld := rfl
@[simp] theorem bumpBy_control (c : Counter) (n : Nat) (s : State) : (bumpBy c n s).control = s.control := rfl
@[simp] theorem bumpBy_links (c : Counter) (n : Nat) (s : State) : (bumpBy c n s).links = s.links := rfl
@[simp] theorem bumpBy_relay (c : Counter) (n : Nat) (s : State) : (bumpBy c n s).relay = s.relay := rfl
@[simp] theorem bumpBy_request (c : Counter) (n : Nat) (s : State) : (bumpBy c n s).request = s.request := rfl
@[simp] theorem bumpBy_config (c : Counter) (n : Nat) (s : State) : (bumpBy c n s).config = s.config := rfl
@[simp] theorem bumpBy_position (c : Counter) (n : Nat) (s : State) : (bumpBy c n s).position = s.position := rfl
@[simp] theorem bumpBy_sensor (c : Counter) (n : Nat) (s : State) : (bumpBy c n s).sensor = s.sensor := rfl
@[simp] theorem bumpBy_tracking (c : Counter) (n : Nat) (s : State) : (bumpBy c n s).tracking = s.tracking := rfl
@[simp] theorem bumpBy_route (c : Counter) (n : Nat) (s : State) : (bumpBy c n s).route = s.route := rfl
@[simp] theorem bumpBy_outlets (c : Counter) (n : Nat) (s : State) : (bumpBy c n s).outlets = s.outlets := rfl
@[simp] theorem bumpBy_report_tallyQueue (c : Counter) (n : Nat) (s : State) : (bumpBy c n s).report.tallyQueue = s.report.tallyQueue := rfl
@[simp] theorem bumpBy_report_tallySeq (c : Counter) (n : Nat) (s : State) : (bumpBy c n s).report.tallySeq = s.report.tallySeq := rfl
@[simp] theorem bumpBy_report_sources (c : Counter) (n : Nat) (s : State) : (bumpBy c n s).report.sources = s.report.sources := rfl
@[simp] theorem bumpBy_report_linkPorts (c : Counter) (n : Nat) (s : State) : (bumpBy c n s).report.linkPorts = s.report.linkPorts := rfl
@[simp] theorem bumpBy_report_rxPorts (c : Counter) (n : Nat) (s : State) : (bumpBy c n s).report.rxPorts = s.report.rxPorts := rfl
@[simp] theorem bumpBy_report_channel (c : Counter) (n : Nat) (s : State) : (bumpBy c n s).report.channel = s.report.channel := rfl
@[simp] theorem bumpBy_pending (c : Counter) (n : Nat) (s : State) : (bumpBy c n s).pending = s.pending := rfl

/-! ## bump -/

@[simp] theorem bump_resetHeld (c : Counter) (s : State) : (bump c s).resetHeld = s.resetHeld := rfl
@[simp] theorem bump_control (c : Counter) (s : State) : (bump c s).control = s.control := rfl
@[simp] theorem bump_links (c : Counter) (s : State) : (bump c s).links = s.links := rfl
@[simp] theorem bump_relay (c : Counter) (s : State) : (bump c s).relay = s.relay := rfl
@[simp] theorem bump_request (c : Counter) (s : State) : (bump c s).request = s.request := rfl
@[simp] theorem bump_config (c : Counter) (s : State) : (bump c s).config = s.config := rfl
@[simp] theorem bump_position (c : Counter) (s : State) : (bump c s).position = s.position := rfl
@[simp] theorem bump_sensor (c : Counter) (s : State) : (bump c s).sensor = s.sensor := rfl
@[simp] theorem bump_tracking (c : Counter) (s : State) : (bump c s).tracking = s.tracking := rfl
@[simp] theorem bump_route (c : Counter) (s : State) : (bump c s).route = s.route := rfl
@[simp] theorem bump_outlets (c : Counter) (s : State) : (bump c s).outlets = s.outlets := rfl
@[simp] theorem bump_report_tallyQueue (c : Counter) (s : State) : (bump c s).report.tallyQueue = s.report.tallyQueue := rfl
@[simp] theorem bump_report_tallySeq (c : Counter) (s : State) : (bump c s).report.tallySeq = s.report.tallySeq := rfl
@[simp] theorem bump_report_sources (c : Counter) (s : State) : (bump c s).report.sources = s.report.sources := rfl
@[simp] theorem bump_report_linkPorts (c : Counter) (s : State) : (bump c s).report.linkPorts = s.report.linkPorts := rfl
@[simp] theorem bump_report_rxPorts (c : Counter) (s : State) : (bump c s).report.rxPorts = s.report.rxPorts := rfl
@[simp] theorem bump_report_channel (c : Counter) (s : State) : (bump c s).report.channel = s.report.channel := rfl
@[simp] theorem bump_pending (c : Counter) (s : State) : (bump c s).pending = s.pending := rfl

/-! ## occur -/

@[simp] theorem occur_resetHeld (src : Source) (s : State) : (occur src s).resetHeld = s.resetHeld := rfl
@[simp] theorem occur_control (src : Source) (s : State) : (occur src s).control = s.control := rfl
@[simp] theorem occur_links (src : Source) (s : State) : (occur src s).links = s.links := rfl
@[simp] theorem occur_relay (src : Source) (s : State) : (occur src s).relay = s.relay := rfl
@[simp] theorem occur_request (src : Source) (s : State) : (occur src s).request = s.request := rfl
@[simp] theorem occur_config (src : Source) (s : State) : (occur src s).config = s.config := rfl
@[simp] theorem occur_position (src : Source) (s : State) : (occur src s).position = s.position := rfl
@[simp] theorem occur_sensor (src : Source) (s : State) : (occur src s).sensor = s.sensor := rfl
@[simp] theorem occur_tracking (src : Source) (s : State) : (occur src s).tracking = s.tracking := rfl
@[simp] theorem occur_route (src : Source) (s : State) : (occur src s).route = s.route := rfl
@[simp] theorem occur_outlets (src : Source) (s : State) : (occur src s).outlets = s.outlets := rfl
@[simp] theorem occur_report_tallyQueue (src : Source) (s : State) : (occur src s).report.tallyQueue = s.report.tallyQueue := rfl
@[simp] theorem occur_report_tallySeq (src : Source) (s : State) : (occur src s).report.tallySeq = s.report.tallySeq := rfl
@[simp] theorem occur_report_linkPorts (src : Source) (s : State) : (occur src s).report.linkPorts = s.report.linkPorts := rfl
@[simp] theorem occur_report_rxPorts (src : Source) (s : State) : (occur src s).report.rxPorts = s.report.rxPorts := rfl
@[simp] theorem occur_report_channel (src : Source) (s : State) : (occur src s).report.channel = s.report.channel := rfl
@[simp] theorem occur_report_counters (src : Source) (s : State) : (occur src s).report.counters = s.report.counters := rfl
@[simp] theorem occur_pending (src : Source) (s : State) : (occur src s).pending = s.pending := rfl

/-! ## occurLinkChange -/

@[simp] theorem occurLinkChange_resetHeld (p : Port) (s : State) : (occurLinkChange p s).resetHeld = s.resetHeld := rfl
@[simp] theorem occurLinkChange_control (p : Port) (s : State) : (occurLinkChange p s).control = s.control := rfl
@[simp] theorem occurLinkChange_links (p : Port) (s : State) : (occurLinkChange p s).links = s.links := rfl
@[simp] theorem occurLinkChange_relay (p : Port) (s : State) : (occurLinkChange p s).relay = s.relay := rfl
@[simp] theorem occurLinkChange_request (p : Port) (s : State) : (occurLinkChange p s).request = s.request := rfl
@[simp] theorem occurLinkChange_config (p : Port) (s : State) : (occurLinkChange p s).config = s.config := rfl
@[simp] theorem occurLinkChange_position (p : Port) (s : State) : (occurLinkChange p s).position = s.position := rfl
@[simp] theorem occurLinkChange_sensor (p : Port) (s : State) : (occurLinkChange p s).sensor = s.sensor := rfl
@[simp] theorem occurLinkChange_tracking (p : Port) (s : State) : (occurLinkChange p s).tracking = s.tracking := rfl
@[simp] theorem occurLinkChange_route (p : Port) (s : State) : (occurLinkChange p s).route = s.route := rfl
@[simp] theorem occurLinkChange_outlets (p : Port) (s : State) : (occurLinkChange p s).outlets = s.outlets := rfl
@[simp] theorem occurLinkChange_report_tallyQueue (p : Port) (s : State) : (occurLinkChange p s).report.tallyQueue = s.report.tallyQueue := rfl
@[simp] theorem occurLinkChange_report_tallySeq (p : Port) (s : State) : (occurLinkChange p s).report.tallySeq = s.report.tallySeq := rfl
@[simp] theorem occurLinkChange_report_rxPorts (p : Port) (s : State) : (occurLinkChange p s).report.rxPorts = s.report.rxPorts := rfl
@[simp] theorem occurLinkChange_report_channel (p : Port) (s : State) : (occurLinkChange p s).report.channel = s.report.channel := rfl
@[simp] theorem occurLinkChange_report_counters (p : Port) (s : State) : (occurLinkChange p s).report.counters = s.report.counters := rfl
@[simp] theorem occurLinkChange_pending (p : Port) (s : State) : (occurLinkChange p s).pending = s.pending := rfl

/-! ## occurRxError -/

@[simp] theorem occurRxError_resetHeld (p : Port) (s : State) : (occurRxError p s).resetHeld = s.resetHeld := rfl
@[simp] theorem occurRxError_control (p : Port) (s : State) : (occurRxError p s).control = s.control := rfl
@[simp] theorem occurRxError_links (p : Port) (s : State) : (occurRxError p s).links = s.links := rfl
@[simp] theorem occurRxError_relay (p : Port) (s : State) : (occurRxError p s).relay = s.relay := rfl
@[simp] theorem occurRxError_request (p : Port) (s : State) : (occurRxError p s).request = s.request := rfl
@[simp] theorem occurRxError_config (p : Port) (s : State) : (occurRxError p s).config = s.config := rfl
@[simp] theorem occurRxError_position (p : Port) (s : State) : (occurRxError p s).position = s.position := rfl
@[simp] theorem occurRxError_sensor (p : Port) (s : State) : (occurRxError p s).sensor = s.sensor := rfl
@[simp] theorem occurRxError_tracking (p : Port) (s : State) : (occurRxError p s).tracking = s.tracking := rfl
@[simp] theorem occurRxError_route (p : Port) (s : State) : (occurRxError p s).route = s.route := rfl
@[simp] theorem occurRxError_outlets (p : Port) (s : State) : (occurRxError p s).outlets = s.outlets := rfl
@[simp] theorem occurRxError_report_tallyQueue (p : Port) (s : State) : (occurRxError p s).report.tallyQueue = s.report.tallyQueue := rfl
@[simp] theorem occurRxError_report_tallySeq (p : Port) (s : State) : (occurRxError p s).report.tallySeq = s.report.tallySeq := rfl
@[simp] theorem occurRxError_report_linkPorts (p : Port) (s : State) : (occurRxError p s).report.linkPorts = s.report.linkPorts := rfl
@[simp] theorem occurRxError_report_channel (p : Port) (s : State) : (occurRxError p s).report.channel = s.report.channel := rfl
@[simp] theorem occurRxError_report_counters (p : Port) (s : State) : (occurRxError p s).report.counters = s.report.counters := rfl
@[simp] theorem occurRxError_pending (p : Port) (s : State) : (occurRxError p s).pending = s.pending := rfl

/-! ## offerTally -/

@[simp] theorem offerTally_resetHeld (t : Tally) (s : State) : (offerTally t s).resetHeld = s.resetHeld := by unfold offerTally; split <;> rfl
@[simp] theorem offerTally_control (t : Tally) (s : State) : (offerTally t s).control = s.control := by unfold offerTally; split <;> rfl
@[simp] theorem offerTally_links (t : Tally) (s : State) : (offerTally t s).links = s.links := by unfold offerTally; split <;> rfl
@[simp] theorem offerTally_relay (t : Tally) (s : State) : (offerTally t s).relay = s.relay := by unfold offerTally; split <;> rfl
@[simp] theorem offerTally_request (t : Tally) (s : State) : (offerTally t s).request = s.request := by unfold offerTally; split <;> rfl
@[simp] theorem offerTally_config (t : Tally) (s : State) : (offerTally t s).config = s.config := by unfold offerTally; split <;> rfl
@[simp] theorem offerTally_position (t : Tally) (s : State) : (offerTally t s).position = s.position := by unfold offerTally; split <;> rfl
@[simp] theorem offerTally_sensor (t : Tally) (s : State) : (offerTally t s).sensor = s.sensor := by unfold offerTally; split <;> rfl
@[simp] theorem offerTally_tracking (t : Tally) (s : State) : (offerTally t s).tracking = s.tracking := by unfold offerTally; split <;> rfl
@[simp] theorem offerTally_route (t : Tally) (s : State) : (offerTally t s).route = s.route := by unfold offerTally; split <;> rfl
@[simp] theorem offerTally_outlets (t : Tally) (s : State) : (offerTally t s).outlets = s.outlets := by unfold offerTally; split <;> rfl
@[simp] theorem offerTally_report_linkPorts (t : Tally) (s : State) : (offerTally t s).report.linkPorts = s.report.linkPorts := by unfold offerTally; split <;> rfl
@[simp] theorem offerTally_report_rxPorts (t : Tally) (s : State) : (offerTally t s).report.rxPorts = s.report.rxPorts := by unfold offerTally; split <;> rfl
@[simp] theorem offerTally_report_channel (t : Tally) (s : State) : (offerTally t s).report.channel = s.report.channel := by unfold offerTally; split <;> rfl
@[simp] theorem offerTally_pending (t : Tally) (s : State) : (offerTally t s).pending = s.pending := by unfold offerTally; split <;> rfl

/-! ## refreshOutputs -/

@[simp] theorem refreshOutputs_resetHeld (s : State) : (refreshOutputs s).resetHeld = s.resetHeld := rfl
@[simp] theorem refreshOutputs_control (s : State) : (refreshOutputs s).control = s.control := rfl
@[simp] theorem refreshOutputs_links (s : State) : (refreshOutputs s).links = s.links := rfl
@[simp] theorem refreshOutputs_relay (s : State) : (refreshOutputs s).relay = s.relay := rfl
@[simp] theorem refreshOutputs_request (s : State) : (refreshOutputs s).request = s.request := rfl
@[simp] theorem refreshOutputs_config (s : State) : (refreshOutputs s).config = s.config := rfl
@[simp] theorem refreshOutputs_position (s : State) : (refreshOutputs s).position = s.position := rfl
@[simp] theorem refreshOutputs_sensor (s : State) : (refreshOutputs s).sensor = s.sensor := rfl
@[simp] theorem refreshOutputs_tracking (s : State) : (refreshOutputs s).tracking = s.tracking := rfl
@[simp] theorem refreshOutputs_route (s : State) : (refreshOutputs s).route = s.route := rfl
@[simp] theorem refreshOutputs_report (s : State) : (refreshOutputs s).report = s.report := rfl
@[simp] theorem refreshOutputs_pending (s : State) : (refreshOutputs s).pending = s.pending := rfl

/-! ## syncWatch -/

@[simp] theorem syncWatch_resetHeld (s : State) : (syncWatch s).resetHeld = s.resetHeld := rfl
@[simp] theorem syncWatch_control (s : State) : (syncWatch s).control = s.control := rfl
@[simp] theorem syncWatch_links (s : State) : (syncWatch s).links = s.links := rfl
@[simp] theorem syncWatch_relay (s : State) : (syncWatch s).relay = s.relay := rfl
@[simp] theorem syncWatch_request (s : State) : (syncWatch s).request = s.request := rfl
@[simp] theorem syncWatch_config (s : State) : (syncWatch s).config = s.config := rfl
@[simp] theorem syncWatch_position_encA (s : State) : (syncWatch s).position.encA = s.position.encA := rfl
@[simp] theorem syncWatch_position_encB (s : State) : (syncWatch s).position.encB = s.position.encB := rfl
@[simp] theorem syncWatch_position_pos (s : State) : (syncWatch s).position.pos = s.position.pos := rfl
@[simp] theorem syncWatch_position_highWater (s : State) : (syncWatch s).position.highWater = s.position.highWater := rfl
@[simp] theorem syncWatch_position_last (s : State) : (syncWatch s).position.last = s.position.last := rfl
@[simp] theorem syncWatch_sensor (s : State) : (syncWatch s).sensor = s.sensor := rfl
@[simp] theorem syncWatch_tracking (s : State) : (syncWatch s).tracking = s.tracking := rfl
@[simp] theorem syncWatch_route (s : State) : (syncWatch s).route = s.route := rfl
@[simp] theorem syncWatch_outlets (s : State) : (syncWatch s).outlets = s.outlets := rfl
@[simp] theorem syncWatch_report (s : State) : (syncWatch s).report = s.report := rfl
@[simp] theorem syncWatch_pending (s : State) : (syncWatch s).pending = s.pending := rfl

/-! ## setTracking -/

@[simp] theorem setTracking_resetHeld (q : List ItemRecord) (s : State) : (setTracking q s).resetHeld = s.resetHeld := rfl
@[simp] theorem setTracking_control (q : List ItemRecord) (s : State) : (setTracking q s).control = s.control := rfl
@[simp] theorem setTracking_links (q : List ItemRecord) (s : State) : (setTracking q s).links = s.links := rfl
@[simp] theorem setTracking_relay (q : List ItemRecord) (s : State) : (setTracking q s).relay = s.relay := rfl
@[simp] theorem setTracking_request (q : List ItemRecord) (s : State) : (setTracking q s).request = s.request := rfl
@[simp] theorem setTracking_config (q : List ItemRecord) (s : State) : (setTracking q s).config = s.config := rfl
@[simp] theorem setTracking_position_encA (q : List ItemRecord) (s : State) : (setTracking q s).position.encA = s.position.encA := rfl
@[simp] theorem setTracking_position_encB (q : List ItemRecord) (s : State) : (setTracking q s).position.encB = s.position.encB := rfl
@[simp] theorem setTracking_position_pos (q : List ItemRecord) (s : State) : (setTracking q s).position.pos = s.position.pos := rfl
@[simp] theorem setTracking_position_highWater (q : List ItemRecord) (s : State) : (setTracking q s).position.highWater = s.position.highWater := rfl
@[simp] theorem setTracking_position_last (q : List ItemRecord) (s : State) : (setTracking q s).position.last = s.position.last := rfl
@[simp] theorem setTracking_sensor (q : List ItemRecord) (s : State) : (setTracking q s).sensor = s.sensor := rfl
@[simp] theorem setTracking_route (q : List ItemRecord) (s : State) : (setTracking q s).route = s.route := rfl
@[simp] theorem setTracking_outlets (q : List ItemRecord) (s : State) : (setTracking q s).outlets = s.outlets := rfl
@[simp] theorem setTracking_report (q : List ItemRecord) (s : State) : (setTracking q s).report = s.report := rfl
@[simp] theorem setTracking_pending (q : List ItemRecord) (s : State) : (setTracking q s).pending = s.pending := rfl

/-! ## removeRecord -/

@[simp] theorem removeRecord_resetHeld (p : ItemRecord → Bool) (r : ItemRecord) (o : OutcomeKind) (x : Pos) (s : State) : (removeRecord p r o x s).resetHeld = s.resetHeld := by dsimp only [removeRecord]; split <;> simp
@[simp] theorem removeRecord_control (p : ItemRecord → Bool) (r : ItemRecord) (o : OutcomeKind) (x : Pos) (s : State) : (removeRecord p r o x s).control = s.control := by dsimp only [removeRecord]; split <;> simp
@[simp] theorem removeRecord_links (p : ItemRecord → Bool) (r : ItemRecord) (o : OutcomeKind) (x : Pos) (s : State) : (removeRecord p r o x s).links = s.links := by dsimp only [removeRecord]; split <;> simp
@[simp] theorem removeRecord_relay (p : ItemRecord → Bool) (r : ItemRecord) (o : OutcomeKind) (x : Pos) (s : State) : (removeRecord p r o x s).relay = s.relay := by dsimp only [removeRecord]; split <;> simp
@[simp] theorem removeRecord_request (p : ItemRecord → Bool) (r : ItemRecord) (o : OutcomeKind) (x : Pos) (s : State) : (removeRecord p r o x s).request = s.request := by dsimp only [removeRecord]; split <;> simp
@[simp] theorem removeRecord_config (p : ItemRecord → Bool) (r : ItemRecord) (o : OutcomeKind) (x : Pos) (s : State) : (removeRecord p r o x s).config = s.config := by dsimp only [removeRecord]; split <;> simp
@[simp] theorem removeRecord_position_encA (p : ItemRecord → Bool) (r : ItemRecord) (o : OutcomeKind) (x : Pos) (s : State) : (removeRecord p r o x s).position.encA = s.position.encA := by dsimp only [removeRecord]; split <;> simp
@[simp] theorem removeRecord_position_encB (p : ItemRecord → Bool) (r : ItemRecord) (o : OutcomeKind) (x : Pos) (s : State) : (removeRecord p r o x s).position.encB = s.position.encB := by dsimp only [removeRecord]; split <;> simp
@[simp] theorem removeRecord_position_pos (p : ItemRecord → Bool) (r : ItemRecord) (o : OutcomeKind) (x : Pos) (s : State) : (removeRecord p r o x s).position.pos = s.position.pos := by dsimp only [removeRecord]; split <;> simp
@[simp] theorem removeRecord_position_highWater (p : ItemRecord → Bool) (r : ItemRecord) (o : OutcomeKind) (x : Pos) (s : State) : (removeRecord p r o x s).position.highWater = s.position.highWater := by dsimp only [removeRecord]; split <;> simp
@[simp] theorem removeRecord_position_last (p : ItemRecord → Bool) (r : ItemRecord) (o : OutcomeKind) (x : Pos) (s : State) : (removeRecord p r o x s).position.last = s.position.last := by dsimp only [removeRecord]; split <;> simp
@[simp] theorem removeRecord_sensor (p : ItemRecord → Bool) (r : ItemRecord) (o : OutcomeKind) (x : Pos) (s : State) : (removeRecord p r o x s).sensor = s.sensor := by dsimp only [removeRecord]; split <;> simp
@[simp] theorem removeRecord_route (p : ItemRecord → Bool) (r : ItemRecord) (o : OutcomeKind) (x : Pos) (s : State) : (removeRecord p r o x s).route = s.route := by dsimp only [removeRecord]; split <;> simp
@[simp] theorem removeRecord_outlets (p : ItemRecord → Bool) (r : ItemRecord) (o : OutcomeKind) (x : Pos) (s : State) : (removeRecord p r o x s).outlets = s.outlets := by dsimp only [removeRecord]; split <;> simp
@[simp] theorem removeRecord_report_linkPorts (p : ItemRecord → Bool) (r : ItemRecord) (o : OutcomeKind) (x : Pos) (s : State) : (removeRecord p r o x s).report.linkPorts = s.report.linkPorts := by dsimp only [removeRecord]; split <;> simp
@[simp] theorem removeRecord_report_rxPorts (p : ItemRecord → Bool) (r : ItemRecord) (o : OutcomeKind) (x : Pos) (s : State) : (removeRecord p r o x s).report.rxPorts = s.report.rxPorts := by dsimp only [removeRecord]; split <;> simp
@[simp] theorem removeRecord_report_channel (p : ItemRecord → Bool) (r : ItemRecord) (o : OutcomeKind) (x : Pos) (s : State) : (removeRecord p r o x s).report.channel = s.report.channel := by dsimp only [removeRecord]; split <;> simp
@[simp] theorem removeRecord_pending (p : ItemRecord → Bool) (r : ItemRecord) (o : OutcomeKind) (x : Pos) (s : State) : (removeRecord p r o x s).pending = s.pending := by dsimp only [removeRecord]; split <;> simp

/-! ## clearSchedules -/

@[simp] theorem clearSchedules_resetHeld (s : State) : (clearSchedules s).resetHeld = s.resetHeld := rfl
@[simp] theorem clearSchedules_control (s : State) : (clearSchedules s).control = s.control := rfl
@[simp] theorem clearSchedules_links (s : State) : (clearSchedules s).links = s.links := rfl
@[simp] theorem clearSchedules_relay (s : State) : (clearSchedules s).relay = s.relay := rfl
@[simp] theorem clearSchedules_request (s : State) : (clearSchedules s).request = s.request := rfl
@[simp] theorem clearSchedules_config (s : State) : (clearSchedules s).config = s.config := rfl
@[simp] theorem clearSchedules_position (s : State) : (clearSchedules s).position = s.position := rfl
@[simp] theorem clearSchedules_sensor (s : State) : (clearSchedules s).sensor = s.sensor := rfl
@[simp] theorem clearSchedules_tracking (s : State) : (clearSchedules s).tracking = s.tracking := rfl
@[simp] theorem clearSchedules_route (s : State) : (clearSchedules s).route = s.route := rfl
@[simp] theorem clearSchedules_report (s : State) : (clearSchedules s).report = s.report := rfl
@[simp] theorem clearSchedules_pending (s : State) : (clearSchedules s).pending = s.pending := rfl

/-! ## endTestFires -/

@[simp] theorem endTestFires_resetHeld (s : State) : (endTestFires s).resetHeld = s.resetHeld := rfl
@[simp] theorem endTestFires_control (s : State) : (endTestFires s).control = s.control := rfl
@[simp] theorem endTestFires_links (s : State) : (endTestFires s).links = s.links := rfl
@[simp] theorem endTestFires_relay (s : State) : (endTestFires s).relay = s.relay := rfl
@[simp] theorem endTestFires_request (s : State) : (endTestFires s).request = s.request := rfl
@[simp] theorem endTestFires_config (s : State) : (endTestFires s).config = s.config := rfl
@[simp] theorem endTestFires_position (s : State) : (endTestFires s).position = s.position := rfl
@[simp] theorem endTestFires_sensor (s : State) : (endTestFires s).sensor = s.sensor := rfl
@[simp] theorem endTestFires_tracking (s : State) : (endTestFires s).tracking = s.tracking := rfl
@[simp] theorem endTestFires_route (s : State) : (endTestFires s).route = s.route := rfl
@[simp] theorem endTestFires_report (s : State) : (endTestFires s).report = s.report := rfl
@[simp] theorem endTestFires_pending (s : State) : (endTestFires s).pending = s.pending := rfl

/-! ## enterMode -/

@[simp] theorem enterMode_resetHeld (m : Mode) (s : State) : (enterMode m s).resetHeld = s.resetHeld := rfl
@[simp] theorem enterMode_control_cause (m : Mode) (s : State) : (enterMode m s).control.cause = s.control.cause := rfl
@[simp] theorem enterMode_control_fault (m : Mode) (s : State) : (enterMode m s).control.fault = s.control.fault := rfl
@[simp] theorem enterMode_links (m : Mode) (s : State) : (enterMode m s).links = s.links := rfl
@[simp] theorem enterMode_relay (m : Mode) (s : State) : (enterMode m s).relay = s.relay := rfl
@[simp] theorem enterMode_request (m : Mode) (s : State) : (enterMode m s).request = s.request := rfl
@[simp] theorem enterMode_config (m : Mode) (s : State) : (enterMode m s).config = s.config := rfl
@[simp] theorem enterMode_position_encA (m : Mode) (s : State) : (enterMode m s).position.encA = s.position.encA := rfl
@[simp] theorem enterMode_position_encB (m : Mode) (s : State) : (enterMode m s).position.encB = s.position.encB := rfl
@[simp] theorem enterMode_position_pos (m : Mode) (s : State) : (enterMode m s).position.pos = s.position.pos := rfl
@[simp] theorem enterMode_position_highWater (m : Mode) (s : State) : (enterMode m s).position.highWater = s.position.highWater := rfl
@[simp] theorem enterMode_position_last (m : Mode) (s : State) : (enterMode m s).position.last = s.position.last := rfl
@[simp] theorem enterMode_sensor (m : Mode) (s : State) : (enterMode m s).sensor = s.sensor := rfl
@[simp] theorem enterMode_tracking (m : Mode) (s : State) : (enterMode m s).tracking = s.tracking := rfl
@[simp] theorem enterMode_route (m : Mode) (s : State) : (enterMode m s).route = s.route := rfl
@[simp] theorem enterMode_report (m : Mode) (s : State) : (enterMode m s).report = s.report := rfl
@[simp] theorem enterMode_pending (m : Mode) (s : State) : (enterMode m s).pending = s.pending := rfl

/-! ## offerDown -/

@[simp] theorem offerDown_resetHeld (f : Frame) (s : State) : (offerDown f s).resetHeld = s.resetHeld := by unfold offerDown; split <;> simp
@[simp] theorem offerDown_control (f : Frame) (s : State) : (offerDown f s).control = s.control := by unfold offerDown; split <;> simp
@[simp] theorem offerDown_links (f : Frame) (s : State) : (offerDown f s).links = s.links := by unfold offerDown; split <;> simp
@[simp] theorem offerDown_relay_address (f : Frame) (s : State) : (offerDown f s).relay.address = s.relay.address := by unfold offerDown; split <;> simp
@[simp] theorem offerDown_relay_upQueue (f : Frame) (s : State) : (offerDown f s).relay.upQueue = s.relay.upQueue := by unfold offerDown; split <;> simp
@[simp] theorem offerDown_relay_handoffQueue (f : Frame) (s : State) : (offerDown f s).relay.handoffQueue = s.relay.handoffQueue := by unfold offerDown; split <;> simp
@[simp] theorem offerDown_relay_uTurn (f : Frame) (s : State) : (offerDown f s).relay.uTurn = s.relay.uTurn := by unfold offerDown; split <;> simp
@[simp] theorem offerDown_relay_dTurn (f : Frame) (s : State) : (offerDown f s).relay.dTurn = s.relay.dTurn := by unfold offerDown; split <;> simp
@[simp] theorem offerDown_relay_txU (f : Frame) (s : State) : (offerDown f s).relay.txU = s.relay.txU := by unfold offerDown; split <;> simp
@[simp] theorem offerDown_relay_txD (f : Frame) (s : State) : (offerDown f s).relay.txD = s.relay.txD := by unfold offerDown; split <;> simp
@[simp] theorem offerDown_request (f : Frame) (s : State) : (offerDown f s).request = s.request := by unfold offerDown; split <;> simp
@[simp] theorem offerDown_config (f : Frame) (s : State) : (offerDown f s).config = s.config := by unfold offerDown; split <;> simp
@[simp] theorem offerDown_position (f : Frame) (s : State) : (offerDown f s).position = s.position := by unfold offerDown; split <;> simp
@[simp] theorem offerDown_sensor (f : Frame) (s : State) : (offerDown f s).sensor = s.sensor := by unfold offerDown; split <;> simp
@[simp] theorem offerDown_tracking (f : Frame) (s : State) : (offerDown f s).tracking = s.tracking := by unfold offerDown; split <;> simp
@[simp] theorem offerDown_route (f : Frame) (s : State) : (offerDown f s).route = s.route := by unfold offerDown; split <;> simp
@[simp] theorem offerDown_outlets (f : Frame) (s : State) : (offerDown f s).outlets = s.outlets := by unfold offerDown; split <;> simp
@[simp] theorem offerDown_report_tallyQueue (f : Frame) (s : State) : (offerDown f s).report.tallyQueue = s.report.tallyQueue := by unfold offerDown; split <;> simp
@[simp] theorem offerDown_report_tallySeq (f : Frame) (s : State) : (offerDown f s).report.tallySeq = s.report.tallySeq := by unfold offerDown; split <;> simp
@[simp] theorem offerDown_report_sources (f : Frame) (s : State) : (offerDown f s).report.sources = s.report.sources := by unfold offerDown; split <;> simp
@[simp] theorem offerDown_report_linkPorts (f : Frame) (s : State) : (offerDown f s).report.linkPorts = s.report.linkPorts := by unfold offerDown; split <;> simp
@[simp] theorem offerDown_report_rxPorts (f : Frame) (s : State) : (offerDown f s).report.rxPorts = s.report.rxPorts := by unfold offerDown; split <;> simp
@[simp] theorem offerDown_report_channel (f : Frame) (s : State) : (offerDown f s).report.channel = s.report.channel := by unfold offerDown; split <;> simp
@[simp] theorem offerDown_pending (f : Frame) (s : State) : (offerDown f s).pending = s.pending := by unfold offerDown; split <;> simp

/-! ## offerUp -/

@[simp] theorem offerUp_resetHeld (f : Frame) (s : State) : (offerUp f s).resetHeld = s.resetHeld := by unfold offerUp; split <;> simp
@[simp] theorem offerUp_control (f : Frame) (s : State) : (offerUp f s).control = s.control := by unfold offerUp; split <;> simp
@[simp] theorem offerUp_links (f : Frame) (s : State) : (offerUp f s).links = s.links := by unfold offerUp; split <;> simp
@[simp] theorem offerUp_relay_address (f : Frame) (s : State) : (offerUp f s).relay.address = s.relay.address := by unfold offerUp; split <;> simp
@[simp] theorem offerUp_relay_downQueue (f : Frame) (s : State) : (offerUp f s).relay.downQueue = s.relay.downQueue := by unfold offerUp; split <;> simp
@[simp] theorem offerUp_relay_handoffQueue (f : Frame) (s : State) : (offerUp f s).relay.handoffQueue = s.relay.handoffQueue := by unfold offerUp; split <;> simp
@[simp] theorem offerUp_relay_uTurn (f : Frame) (s : State) : (offerUp f s).relay.uTurn = s.relay.uTurn := by unfold offerUp; split <;> simp
@[simp] theorem offerUp_relay_dTurn (f : Frame) (s : State) : (offerUp f s).relay.dTurn = s.relay.dTurn := by unfold offerUp; split <;> simp
@[simp] theorem offerUp_relay_txU (f : Frame) (s : State) : (offerUp f s).relay.txU = s.relay.txU := by unfold offerUp; split <;> simp
@[simp] theorem offerUp_relay_txD (f : Frame) (s : State) : (offerUp f s).relay.txD = s.relay.txD := by unfold offerUp; split <;> simp
@[simp] theorem offerUp_request (f : Frame) (s : State) : (offerUp f s).request = s.request := by unfold offerUp; split <;> simp
@[simp] theorem offerUp_config (f : Frame) (s : State) : (offerUp f s).config = s.config := by unfold offerUp; split <;> simp
@[simp] theorem offerUp_position (f : Frame) (s : State) : (offerUp f s).position = s.position := by unfold offerUp; split <;> simp
@[simp] theorem offerUp_sensor (f : Frame) (s : State) : (offerUp f s).sensor = s.sensor := by unfold offerUp; split <;> simp
@[simp] theorem offerUp_tracking (f : Frame) (s : State) : (offerUp f s).tracking = s.tracking := by unfold offerUp; split <;> simp
@[simp] theorem offerUp_route (f : Frame) (s : State) : (offerUp f s).route = s.route := by unfold offerUp; split <;> simp
@[simp] theorem offerUp_outlets (f : Frame) (s : State) : (offerUp f s).outlets = s.outlets := by unfold offerUp; split <;> simp
@[simp] theorem offerUp_report_tallyQueue (f : Frame) (s : State) : (offerUp f s).report.tallyQueue = s.report.tallyQueue := by unfold offerUp; split <;> simp
@[simp] theorem offerUp_report_tallySeq (f : Frame) (s : State) : (offerUp f s).report.tallySeq = s.report.tallySeq := by unfold offerUp; split <;> simp
@[simp] theorem offerUp_report_linkPorts (f : Frame) (s : State) : (offerUp f s).report.linkPorts = s.report.linkPorts := by unfold offerUp; split <;> simp
@[simp] theorem offerUp_report_rxPorts (f : Frame) (s : State) : (offerUp f s).report.rxPorts = s.report.rxPorts := by unfold offerUp; split <;> simp
@[simp] theorem offerUp_report_channel (f : Frame) (s : State) : (offerUp f s).report.channel = s.report.channel := by unfold offerUp; split <;> simp
@[simp] theorem offerUp_pending (f : Frame) (s : State) : (offerUp f s).pending = s.pending := by unfold offerUp; split <;> simp

/-! ## pushHandoff -/

@[simp] theorem pushHandoff_resetHeld (f : Frame) (s : State) : (pushHandoff f s).resetHeld = s.resetHeld := rfl
@[simp] theorem pushHandoff_control (f : Frame) (s : State) : (pushHandoff f s).control = s.control := rfl
@[simp] theorem pushHandoff_links (f : Frame) (s : State) : (pushHandoff f s).links = s.links := rfl
@[simp] theorem pushHandoff_relay_address (f : Frame) (s : State) : (pushHandoff f s).relay.address = s.relay.address := rfl
@[simp] theorem pushHandoff_relay_downQueue (f : Frame) (s : State) : (pushHandoff f s).relay.downQueue = s.relay.downQueue := rfl
@[simp] theorem pushHandoff_relay_upQueue (f : Frame) (s : State) : (pushHandoff f s).relay.upQueue = s.relay.upQueue := rfl
@[simp] theorem pushHandoff_relay_uTurn (f : Frame) (s : State) : (pushHandoff f s).relay.uTurn = s.relay.uTurn := rfl
@[simp] theorem pushHandoff_relay_dTurn (f : Frame) (s : State) : (pushHandoff f s).relay.dTurn = s.relay.dTurn := rfl
@[simp] theorem pushHandoff_relay_txU (f : Frame) (s : State) : (pushHandoff f s).relay.txU = s.relay.txU := rfl
@[simp] theorem pushHandoff_relay_txD (f : Frame) (s : State) : (pushHandoff f s).relay.txD = s.relay.txD := rfl
@[simp] theorem pushHandoff_request (f : Frame) (s : State) : (pushHandoff f s).request = s.request := rfl
@[simp] theorem pushHandoff_config (f : Frame) (s : State) : (pushHandoff f s).config = s.config := rfl
@[simp] theorem pushHandoff_position (f : Frame) (s : State) : (pushHandoff f s).position = s.position := rfl
@[simp] theorem pushHandoff_sensor (f : Frame) (s : State) : (pushHandoff f s).sensor = s.sensor := rfl
@[simp] theorem pushHandoff_tracking (f : Frame) (s : State) : (pushHandoff f s).tracking = s.tracking := rfl
@[simp] theorem pushHandoff_route (f : Frame) (s : State) : (pushHandoff f s).route = s.route := rfl
@[simp] theorem pushHandoff_outlets (f : Frame) (s : State) : (pushHandoff f s).outlets = s.outlets := rfl
@[simp] theorem pushHandoff_report (f : Frame) (s : State) : (pushHandoff f s).report = s.report := rfl
@[simp] theorem pushHandoff_pending (f : Frame) (s : State) : (pushHandoff f s).pending = s.pending := rfl

/-! ## placeFrame -/

@[simp] theorem placeFrame_resetHeld (f : Frame) (s : State) : (placeFrame f s).resetHeld = s.resetHeld := rfl
@[simp] theorem placeFrame_control (f : Frame) (s : State) : (placeFrame f s).control = s.control := rfl
@[simp] theorem placeFrame_links (f : Frame) (s : State) : (placeFrame f s).links = s.links := rfl
@[simp] theorem placeFrame_relay (f : Frame) (s : State) : (placeFrame f s).relay = s.relay := rfl
@[simp] theorem placeFrame_request_cache (f : Frame) (s : State) : (placeFrame f s).request.cache = s.request.cache := rfl
@[simp] theorem placeFrame_config (f : Frame) (s : State) : (placeFrame f s).config = s.config := rfl
@[simp] theorem placeFrame_position (f : Frame) (s : State) : (placeFrame f s).position = s.position := rfl
@[simp] theorem placeFrame_sensor (f : Frame) (s : State) : (placeFrame f s).sensor = s.sensor := rfl
@[simp] theorem placeFrame_tracking (f : Frame) (s : State) : (placeFrame f s).tracking = s.tracking := rfl
@[simp] theorem placeFrame_route (f : Frame) (s : State) : (placeFrame f s).route = s.route := rfl
@[simp] theorem placeFrame_outlets (f : Frame) (s : State) : (placeFrame f s).outlets = s.outlets := rfl
@[simp] theorem placeFrame_report (f : Frame) (s : State) : (placeFrame f s).report = s.report := rfl
@[simp] theorem placeFrame_pending (f : Frame) (s : State) : (placeFrame f s).pending = s.pending := rfl

/-! ## reply -/

@[simp] theorem reply_resetHeld (num code : Byte) (st : Status) (data : List Byte) (s : State) : (reply num code st data s).resetHeld = s.resetHeld := rfl
@[simp] theorem reply_control (num code : Byte) (st : Status) (data : List Byte) (s : State) : (reply num code st data s).control = s.control := rfl
@[simp] theorem reply_links (num code : Byte) (st : Status) (data : List Byte) (s : State) : (reply num code st data s).links = s.links := rfl
@[simp] theorem reply_relay (num code : Byte) (st : Status) (data : List Byte) (s : State) : (reply num code st data s).relay = s.relay := rfl
@[simp] theorem reply_config (num code : Byte) (st : Status) (data : List Byte) (s : State) : (reply num code st data s).config = s.config := rfl
@[simp] theorem reply_position (num code : Byte) (st : Status) (data : List Byte) (s : State) : (reply num code st data s).position = s.position := rfl
@[simp] theorem reply_sensor (num code : Byte) (st : Status) (data : List Byte) (s : State) : (reply num code st data s).sensor = s.sensor := rfl
@[simp] theorem reply_tracking (num code : Byte) (st : Status) (data : List Byte) (s : State) : (reply num code st data s).tracking = s.tracking := rfl
@[simp] theorem reply_route (num code : Byte) (st : Status) (data : List Byte) (s : State) : (reply num code st data s).route = s.route := rfl
@[simp] theorem reply_outlets (num code : Byte) (st : Status) (data : List Byte) (s : State) : (reply num code st data s).outlets = s.outlets := rfl
@[simp] theorem reply_report (num code : Byte) (st : Status) (data : List Byte) (s : State) : (reply num code st data s).report = s.report := rfl
@[simp] theorem reply_pending (num code : Byte) (st : Status) (data : List Byte) (s : State) : (reply num code st data s).pending = s.pending := rfl

/-! ## replyBusy -/

@[simp] theorem replyBusy_resetHeld (num code : Byte) (s : State) : (replyBusy num code s).resetHeld = s.resetHeld := rfl
@[simp] theorem replyBusy_control (num code : Byte) (s : State) : (replyBusy num code s).control = s.control := rfl
@[simp] theorem replyBusy_links (num code : Byte) (s : State) : (replyBusy num code s).links = s.links := rfl
@[simp] theorem replyBusy_relay (num code : Byte) (s : State) : (replyBusy num code s).relay = s.relay := rfl
@[simp] theorem replyBusy_request_cache (num code : Byte) (s : State) : (replyBusy num code s).request.cache = s.request.cache := rfl
@[simp] theorem replyBusy_config (num code : Byte) (s : State) : (replyBusy num code s).config = s.config := rfl
@[simp] theorem replyBusy_position (num code : Byte) (s : State) : (replyBusy num code s).position = s.position := rfl
@[simp] theorem replyBusy_sensor (num code : Byte) (s : State) : (replyBusy num code s).sensor = s.sensor := rfl
@[simp] theorem replyBusy_tracking (num code : Byte) (s : State) : (replyBusy num code s).tracking = s.tracking := rfl
@[simp] theorem replyBusy_route (num code : Byte) (s : State) : (replyBusy num code s).route = s.route := rfl
@[simp] theorem replyBusy_outlets (num code : Byte) (s : State) : (replyBusy num code s).outlets = s.outlets := rfl
@[simp] theorem replyBusy_report (num code : Byte) (s : State) : (replyBusy num code s).report = s.report := rfl
@[simp] theorem replyBusy_pending (num code : Byte) (s : State) : (replyBusy num code s).pending = s.pending := rfl

/-! ## replyMode -/

@[simp] theorem replyMode_resetHeld (num code : Byte) (s : State) : (replyMode num code s).resetHeld = s.resetHeld := rfl
@[simp] theorem replyMode_control (num code : Byte) (s : State) : (replyMode num code s).control = s.control := rfl
@[simp] theorem replyMode_links (num code : Byte) (s : State) : (replyMode num code s).links = s.links := rfl
@[simp] theorem replyMode_relay (num code : Byte) (s : State) : (replyMode num code s).relay = s.relay := rfl
@[simp] theorem replyMode_config (num code : Byte) (s : State) : (replyMode num code s).config = s.config := rfl
@[simp] theorem replyMode_position (num code : Byte) (s : State) : (replyMode num code s).position = s.position := rfl
@[simp] theorem replyMode_sensor (num code : Byte) (s : State) : (replyMode num code s).sensor = s.sensor := rfl
@[simp] theorem replyMode_tracking (num code : Byte) (s : State) : (replyMode num code s).tracking = s.tracking := rfl
@[simp] theorem replyMode_route (num code : Byte) (s : State) : (replyMode num code s).route = s.route := rfl
@[simp] theorem replyMode_outlets (num code : Byte) (s : State) : (replyMode num code s).outlets = s.outlets := rfl
@[simp] theorem replyMode_report (num code : Byte) (s : State) : (replyMode num code s).report = s.report := rfl
@[simp] theorem replyMode_pending (num code : Byte) (s : State) : (replyMode num code s).pending = s.pending := rfl

/-! ## applyConfig -/

@[simp] theorem applyConfig_resetHeld (c : StationConfig) (s : State) : (applyConfig c s).resetHeld = s.resetHeld := rfl
@[simp] theorem applyConfig_control (c : StationConfig) (s : State) : (applyConfig c s).control = s.control := rfl
@[simp] theorem applyConfig_links (c : StationConfig) (s : State) : (applyConfig c s).links = s.links := rfl
@[simp] theorem applyConfig_relay (c : StationConfig) (s : State) : (applyConfig c s).relay = s.relay := rfl
@[simp] theorem applyConfig_request (c : StationConfig) (s : State) : (applyConfig c s).request = s.request := rfl
@[simp] theorem applyConfig_position (c : StationConfig) (s : State) : (applyConfig c s).position = s.position := rfl
@[simp] theorem applyConfig_tracking (c : StationConfig) (s : State) : (applyConfig c s).tracking = s.tracking := rfl
@[simp] theorem applyConfig_route (c : StationConfig) (s : State) : (applyConfig c s).route = s.route := rfl
@[simp] theorem applyConfig_outlets (c : StationConfig) (s : State) : (applyConfig c s).outlets = s.outlets := rfl
@[simp] theorem applyConfig_report (c : StationConfig) (s : State) : (applyConfig c s).report = s.report := rfl
@[simp] theorem applyConfig_pending (c : StationConfig) (s : State) : (applyConfig c s).pending = s.pending := rfl

/-! ## reportStall -/

@[simp] theorem reportStall_resetHeld (n : Nat) (s : State) : (reportStall n s).resetHeld = s.resetHeld := rfl
@[simp] theorem reportStall_control (n : Nat) (s : State) : (reportStall n s).control = s.control := rfl
@[simp] theorem reportStall_links (n : Nat) (s : State) : (reportStall n s).links = s.links := rfl
@[simp] theorem reportStall_relay (n : Nat) (s : State) : (reportStall n s).relay = s.relay := rfl
@[simp] theorem reportStall_request (n : Nat) (s : State) : (reportStall n s).request = s.request := rfl
@[simp] theorem reportStall_config (n : Nat) (s : State) : (reportStall n s).config = s.config := rfl
@[simp] theorem reportStall_position_encA (n : Nat) (s : State) : (reportStall n s).position.encA = s.position.encA := rfl
@[simp] theorem reportStall_position_encB (n : Nat) (s : State) : (reportStall n s).position.encB = s.position.encB := rfl
@[simp] theorem reportStall_position_pos (n : Nat) (s : State) : (reportStall n s).position.pos = s.position.pos := rfl
@[simp] theorem reportStall_position_highWater (n : Nat) (s : State) : (reportStall n s).position.highWater = s.position.highWater := rfl
@[simp] theorem reportStall_position_last (n : Nat) (s : State) : (reportStall n s).position.last = s.position.last := rfl
@[simp] theorem reportStall_sensor (n : Nat) (s : State) : (reportStall n s).sensor = s.sensor := rfl
@[simp] theorem reportStall_tracking (n : Nat) (s : State) : (reportStall n s).tracking = s.tracking := rfl
@[simp] theorem reportStall_route (n : Nat) (s : State) : (reportStall n s).route = s.route := rfl
@[simp] theorem reportStall_outlets (n : Nat) (s : State) : (reportStall n s).outlets = s.outlets := rfl
@[simp] theorem reportStall_report_tallyQueue (n : Nat) (s : State) : (reportStall n s).report.tallyQueue = s.report.tallyQueue := rfl
@[simp] theorem reportStall_report_tallySeq (n : Nat) (s : State) : (reportStall n s).report.tallySeq = s.report.tallySeq := rfl
@[simp] theorem reportStall_report_linkPorts (n : Nat) (s : State) : (reportStall n s).report.linkPorts = s.report.linkPorts := rfl
@[simp] theorem reportStall_report_rxPorts (n : Nat) (s : State) : (reportStall n s).report.rxPorts = s.report.rxPorts := rfl
@[simp] theorem reportStall_report_channel (n : Nat) (s : State) : (reportStall n s).report.channel = s.report.channel := rfl
@[simp] theorem reportStall_report_counters (n : Nat) (s : State) : (reportStall n s).report.counters = s.report.counters := rfl
@[simp] theorem reportStall_pending (n : Nat) (s : State) : (reportStall n s).pending = s.pending := rfl

/-! ## resolveTo -/

@[simp] theorem resolveTo_resetHeld (x : ItemRecord) (s : State) : (resolveTo x s).resetHeld = s.resetHeld := rfl
@[simp] theorem resolveTo_control (x : ItemRecord) (s : State) : (resolveTo x s).control = s.control := rfl
@[simp] theorem resolveTo_links (x : ItemRecord) (s : State) : (resolveTo x s).links = s.links := rfl
@[simp] theorem resolveTo_relay (x : ItemRecord) (s : State) : (resolveTo x s).relay = s.relay := rfl
@[simp] theorem resolveTo_request (x : ItemRecord) (s : State) : (resolveTo x s).request = s.request := rfl
@[simp] theorem resolveTo_config (x : ItemRecord) (s : State) : (resolveTo x s).config = s.config := rfl
@[simp] theorem resolveTo_position_encA (x : ItemRecord) (s : State) : (resolveTo x s).position.encA = s.position.encA := rfl
@[simp] theorem resolveTo_position_encB (x : ItemRecord) (s : State) : (resolveTo x s).position.encB = s.position.encB := rfl
@[simp] theorem resolveTo_position_pos (x : ItemRecord) (s : State) : (resolveTo x s).position.pos = s.position.pos := rfl
@[simp] theorem resolveTo_position_highWater (x : ItemRecord) (s : State) : (resolveTo x s).position.highWater = s.position.highWater := rfl
@[simp] theorem resolveTo_position_last (x : ItemRecord) (s : State) : (resolveTo x s).position.last = s.position.last := rfl
@[simp] theorem resolveTo_sensor (x : ItemRecord) (s : State) : (resolveTo x s).sensor = s.sensor := rfl
@[simp] theorem resolveTo_route (x : ItemRecord) (s : State) : (resolveTo x s).route = s.route := rfl
@[simp] theorem resolveTo_outlets (x : ItemRecord) (s : State) : (resolveTo x s).outlets = s.outlets := rfl
@[simp] theorem resolveTo_report (x : ItemRecord) (s : State) : (resolveTo x s).report = s.report := rfl
@[simp] theorem resolveTo_pending (x : ItemRecord) (s : State) : (resolveTo x s).pending = s.pending := rfl

/-! ## setSchedule -/

@[simp] theorem setSchedule_resetHeld (k : OutletId) (ws : List Window) (s : State) : (setSchedule k ws s).resetHeld = s.resetHeld := rfl
@[simp] theorem setSchedule_control (k : OutletId) (ws : List Window) (s : State) : (setSchedule k ws s).control = s.control := rfl
@[simp] theorem setSchedule_links (k : OutletId) (ws : List Window) (s : State) : (setSchedule k ws s).links = s.links := rfl
@[simp] theorem setSchedule_relay (k : OutletId) (ws : List Window) (s : State) : (setSchedule k ws s).relay = s.relay := rfl
@[simp] theorem setSchedule_request (k : OutletId) (ws : List Window) (s : State) : (setSchedule k ws s).request = s.request := rfl
@[simp] theorem setSchedule_config (k : OutletId) (ws : List Window) (s : State) : (setSchedule k ws s).config = s.config := rfl
@[simp] theorem setSchedule_position (k : OutletId) (ws : List Window) (s : State) : (setSchedule k ws s).position = s.position := rfl
@[simp] theorem setSchedule_sensor (k : OutletId) (ws : List Window) (s : State) : (setSchedule k ws s).sensor = s.sensor := rfl
@[simp] theorem setSchedule_tracking (k : OutletId) (ws : List Window) (s : State) : (setSchedule k ws s).tracking = s.tracking := rfl
@[simp] theorem setSchedule_route (k : OutletId) (ws : List Window) (s : State) : (setSchedule k ws s).route = s.route := rfl
@[simp] theorem setSchedule_report (k : OutletId) (ws : List Window) (s : State) : (setSchedule k ws s).report = s.report := rfl
@[simp] theorem setSchedule_pending (k : OutletId) (ws : List Window) (s : State) : (setSchedule k ws s).pending = s.pending := rfl

/-! ## takeCount -/

@[simp] theorem takeCount_resetHeld (b : Bool) (s : State) : (takeCount b s).resetHeld = s.resetHeld := rfl
@[simp] theorem takeCount_control (b : Bool) (s : State) : (takeCount b s).control = s.control := rfl
@[simp] theorem takeCount_links (b : Bool) (s : State) : (takeCount b s).links = s.links := rfl
@[simp] theorem takeCount_relay (b : Bool) (s : State) : (takeCount b s).relay = s.relay := rfl
@[simp] theorem takeCount_request (b : Bool) (s : State) : (takeCount b s).request = s.request := rfl
@[simp] theorem takeCount_config (b : Bool) (s : State) : (takeCount b s).config = s.config := rfl
@[simp] theorem takeCount_position_encA (b : Bool) (s : State) : (takeCount b s).position.encA = s.position.encA := rfl
@[simp] theorem takeCount_position_encB (b : Bool) (s : State) : (takeCount b s).position.encB = s.position.encB := rfl
@[simp] theorem takeCount_tracking (b : Bool) (s : State) : (takeCount b s).tracking = s.tracking := rfl
@[simp] theorem takeCount_route (b : Bool) (s : State) : (takeCount b s).route = s.route := rfl
@[simp] theorem takeCount_report (b : Bool) (s : State) : (takeCount b s).report = s.report := rfl
@[simp] theorem takeCount_pending (b : Bool) (s : State) : (takeCount b s).pending = s.pending := rfl

/-! ## moveEncoder -/

@[simp] theorem moveEncoder_resetHeld (pair : Bool × Bool) (s : State) : (moveEncoder pair s).resetHeld = s.resetHeld := rfl
@[simp] theorem moveEncoder_control (pair : Bool × Bool) (s : State) : (moveEncoder pair s).control = s.control := rfl
@[simp] theorem moveEncoder_links (pair : Bool × Bool) (s : State) : (moveEncoder pair s).links = s.links := rfl
@[simp] theorem moveEncoder_relay (pair : Bool × Bool) (s : State) : (moveEncoder pair s).relay = s.relay := rfl
@[simp] theorem moveEncoder_request (pair : Bool × Bool) (s : State) : (moveEncoder pair s).request = s.request := rfl
@[simp] theorem moveEncoder_config (pair : Bool × Bool) (s : State) : (moveEncoder pair s).config = s.config := rfl
@[simp] theorem moveEncoder_position_pos (pair : Bool × Bool) (s : State) : (moveEncoder pair s).position.pos = s.position.pos := rfl
@[simp] theorem moveEncoder_position_highWater (pair : Bool × Bool) (s : State) : (moveEncoder pair s).position.highWater = s.position.highWater := rfl
@[simp] theorem moveEncoder_position_last (pair : Bool × Bool) (s : State) : (moveEncoder pair s).position.last = s.position.last := rfl
@[simp] theorem moveEncoder_position_watch (pair : Bool × Bool) (s : State) : (moveEncoder pair s).position.watch = s.position.watch := rfl
@[simp] theorem moveEncoder_sensor (pair : Bool × Bool) (s : State) : (moveEncoder pair s).sensor = s.sensor := rfl
@[simp] theorem moveEncoder_tracking (pair : Bool × Bool) (s : State) : (moveEncoder pair s).tracking = s.tracking := rfl
@[simp] theorem moveEncoder_route (pair : Bool × Bool) (s : State) : (moveEncoder pair s).route = s.route := rfl
@[simp] theorem moveEncoder_outlets (pair : Bool × Bool) (s : State) : (moveEncoder pair s).outlets = s.outlets := rfl
@[simp] theorem moveEncoder_report (pair : Bool × Bool) (s : State) : (moveEncoder pair s).report = s.report := rfl
@[simp] theorem moveEncoder_pending (pair : Bool × Bool) (s : State) : (moveEncoder pair s).pending = s.pending := rfl

/-! ## setLink -/

@[simp] theorem setLink_resetHeld (p : Port) (l : LinkPort) (s : State) : (setLink p l s).resetHeld = s.resetHeld := rfl
@[simp] theorem setLink_control (p : Port) (l : LinkPort) (s : State) : (setLink p l s).control = s.control := rfl
@[simp] theorem setLink_relay (p : Port) (l : LinkPort) (s : State) : (setLink p l s).relay = s.relay := rfl
@[simp] theorem setLink_request (p : Port) (l : LinkPort) (s : State) : (setLink p l s).request = s.request := rfl
@[simp] theorem setLink_config (p : Port) (l : LinkPort) (s : State) : (setLink p l s).config = s.config := rfl
@[simp] theorem setLink_position (p : Port) (l : LinkPort) (s : State) : (setLink p l s).position = s.position := rfl
@[simp] theorem setLink_sensor (p : Port) (l : LinkPort) (s : State) : (setLink p l s).sensor = s.sensor := rfl
@[simp] theorem setLink_tracking (p : Port) (l : LinkPort) (s : State) : (setLink p l s).tracking = s.tracking := rfl
@[simp] theorem setLink_route (p : Port) (l : LinkPort) (s : State) : (setLink p l s).route = s.route := rfl
@[simp] theorem setLink_outlets (p : Port) (l : LinkPort) (s : State) : (setLink p l s).outlets = s.outlets := rfl
@[simp] theorem setLink_report (p : Port) (l : LinkPort) (s : State) : (setLink p l s).report = s.report := rfl
@[simp] theorem setLink_pending (p : Port) (l : LinkPort) (s : State) : (setLink p l s).pending = s.pending := rfl

/-! ## setFramer -/

@[simp] theorem setFramer_resetHeld (p : Port) (f : Framer) (s : State) : (setFramer p f s).resetHeld = s.resetHeld := rfl
@[simp] theorem setFramer_control (p : Port) (f : Framer) (s : State) : (setFramer p f s).control = s.control := rfl
@[simp] theorem setFramer_relay (p : Port) (f : Framer) (s : State) : (setFramer p f s).relay = s.relay := rfl
@[simp] theorem setFramer_request (p : Port) (f : Framer) (s : State) : (setFramer p f s).request = s.request := rfl
@[simp] theorem setFramer_config (p : Port) (f : Framer) (s : State) : (setFramer p f s).config = s.config := rfl
@[simp] theorem setFramer_position (p : Port) (f : Framer) (s : State) : (setFramer p f s).position = s.position := rfl
@[simp] theorem setFramer_sensor (p : Port) (f : Framer) (s : State) : (setFramer p f s).sensor = s.sensor := rfl
@[simp] theorem setFramer_tracking (p : Port) (f : Framer) (s : State) : (setFramer p f s).tracking = s.tracking := rfl
@[simp] theorem setFramer_route (p : Port) (f : Framer) (s : State) : (setFramer p f s).route = s.route := rfl
@[simp] theorem setFramer_outlets (p : Port) (f : Framer) (s : State) : (setFramer p f s).outlets = s.outlets := rfl
@[simp] theorem setFramer_report (p : Port) (f : Framer) (s : State) : (setFramer p f s).report = s.report := rfl
@[simp] theorem setFramer_pending (p : Port) (f : Framer) (s : State) : (setFramer p f s).pending = s.pending := rfl

/-! ## setViolationRun -/

@[simp] theorem setViolationRun_resetHeld (p : Port) (n : Nat) (s : State) : (setViolationRun p n s).resetHeld = s.resetHeld := rfl
@[simp] theorem setViolationRun_control (p : Port) (n : Nat) (s : State) : (setViolationRun p n s).control = s.control := rfl
@[simp] theorem setViolationRun_relay (p : Port) (n : Nat) (s : State) : (setViolationRun p n s).relay = s.relay := rfl
@[simp] theorem setViolationRun_request (p : Port) (n : Nat) (s : State) : (setViolationRun p n s).request = s.request := rfl
@[simp] theorem setViolationRun_config (p : Port) (n : Nat) (s : State) : (setViolationRun p n s).config = s.config := rfl
@[simp] theorem setViolationRun_position (p : Port) (n : Nat) (s : State) : (setViolationRun p n s).position = s.position := rfl
@[simp] theorem setViolationRun_sensor (p : Port) (n : Nat) (s : State) : (setViolationRun p n s).sensor = s.sensor := rfl
@[simp] theorem setViolationRun_tracking (p : Port) (n : Nat) (s : State) : (setViolationRun p n s).tracking = s.tracking := rfl
@[simp] theorem setViolationRun_route (p : Port) (n : Nat) (s : State) : (setViolationRun p n s).route = s.route := rfl
@[simp] theorem setViolationRun_outlets (p : Port) (n : Nat) (s : State) : (setViolationRun p n s).outlets = s.outlets := rfl
@[simp] theorem setViolationRun_report (p : Port) (n : Nat) (s : State) : (setViolationRun p n s).report = s.report := rfl
@[simp] theorem setViolationRun_pending (p : Port) (n : Nat) (s : State) : (setViolationRun p n s).pending = s.pending := rfl

/-! ## setAlignRun -/

@[simp] theorem setAlignRun_resetHeld (p : Port) (n : Nat) (s : State) : (setAlignRun p n s).resetHeld = s.resetHeld := rfl
@[simp] theorem setAlignRun_control (p : Port) (n : Nat) (s : State) : (setAlignRun p n s).control = s.control := rfl
@[simp] theorem setAlignRun_relay (p : Port) (n : Nat) (s : State) : (setAlignRun p n s).relay = s.relay := rfl
@[simp] theorem setAlignRun_request (p : Port) (n : Nat) (s : State) : (setAlignRun p n s).request = s.request := rfl
@[simp] theorem setAlignRun_config (p : Port) (n : Nat) (s : State) : (setAlignRun p n s).config = s.config := rfl
@[simp] theorem setAlignRun_position (p : Port) (n : Nat) (s : State) : (setAlignRun p n s).position = s.position := rfl
@[simp] theorem setAlignRun_sensor (p : Port) (n : Nat) (s : State) : (setAlignRun p n s).sensor = s.sensor := rfl
@[simp] theorem setAlignRun_tracking (p : Port) (n : Nat) (s : State) : (setAlignRun p n s).tracking = s.tracking := rfl
@[simp] theorem setAlignRun_route (p : Port) (n : Nat) (s : State) : (setAlignRun p n s).route = s.route := rfl
@[simp] theorem setAlignRun_outlets (p : Port) (n : Nat) (s : State) : (setAlignRun p n s).outlets = s.outlets := rfl
@[simp] theorem setAlignRun_report (p : Port) (n : Nat) (s : State) : (setAlignRun p n s).report = s.report := rfl
@[simp] theorem setAlignRun_pending (p : Port) (n : Nat) (s : State) : (setAlignRun p n s).pending = s.pending := rfl

/-! ## takeRxError -/

@[simp] theorem takeRxError_resetHeld (p : Port) (e : RxKind) (s : State) : (takeRxError p e s).resetHeld = s.resetHeld := rfl
@[simp] theorem takeRxError_control (p : Port) (e : RxKind) (s : State) : (takeRxError p e s).control = s.control := rfl
@[simp] theorem takeRxError_relay (p : Port) (e : RxKind) (s : State) : (takeRxError p e s).relay = s.relay := rfl
@[simp] theorem takeRxError_request (p : Port) (e : RxKind) (s : State) : (takeRxError p e s).request = s.request := rfl
@[simp] theorem takeRxError_config (p : Port) (e : RxKind) (s : State) : (takeRxError p e s).config = s.config := rfl
@[simp] theorem takeRxError_position (p : Port) (e : RxKind) (s : State) : (takeRxError p e s).position = s.position := rfl
@[simp] theorem takeRxError_sensor (p : Port) (e : RxKind) (s : State) : (takeRxError p e s).sensor = s.sensor := rfl
@[simp] theorem takeRxError_tracking (p : Port) (e : RxKind) (s : State) : (takeRxError p e s).tracking = s.tracking := rfl
@[simp] theorem takeRxError_route (p : Port) (e : RxKind) (s : State) : (takeRxError p e s).route = s.route := rfl
@[simp] theorem takeRxError_outlets (p : Port) (e : RxKind) (s : State) : (takeRxError p e s).outlets = s.outlets := rfl
@[simp] theorem takeRxError_report_tallyQueue (p : Port) (e : RxKind) (s : State) : (takeRxError p e s).report.tallyQueue = s.report.tallyQueue := rfl
@[simp] theorem takeRxError_report_tallySeq (p : Port) (e : RxKind) (s : State) : (takeRxError p e s).report.tallySeq = s.report.tallySeq := rfl
@[simp] theorem takeRxError_report_linkPorts (p : Port) (e : RxKind) (s : State) : (takeRxError p e s).report.linkPorts = s.report.linkPorts := rfl
@[simp] theorem takeRxError_report_channel (p : Port) (e : RxKind) (s : State) : (takeRxError p e s).report.channel = s.report.channel := rfl
@[simp] theorem takeRxError_pending (p : Port) (e : RxKind) (s : State) : (takeRxError p e s).pending = s.pending := rfl

/-! ## portGoesUp -/

@[simp] theorem portGoesUp_resetHeld (p : Port) (s : State) : (portGoesUp p s).resetHeld = s.resetHeld := rfl
@[simp] theorem portGoesUp_control (p : Port) (s : State) : (portGoesUp p s).control = s.control := rfl
@[simp] theorem portGoesUp_relay (p : Port) (s : State) : (portGoesUp p s).relay = s.relay := rfl
@[simp] theorem portGoesUp_request (p : Port) (s : State) : (portGoesUp p s).request = s.request := rfl
@[simp] theorem portGoesUp_config (p : Port) (s : State) : (portGoesUp p s).config = s.config := rfl
@[simp] theorem portGoesUp_position (p : Port) (s : State) : (portGoesUp p s).position = s.position := rfl
@[simp] theorem portGoesUp_sensor (p : Port) (s : State) : (portGoesUp p s).sensor = s.sensor := rfl
@[simp] theorem portGoesUp_tracking (p : Port) (s : State) : (portGoesUp p s).tracking = s.tracking := rfl
@[simp] theorem portGoesUp_route (p : Port) (s : State) : (portGoesUp p s).route = s.route := rfl
@[simp] theorem portGoesUp_outlets (p : Port) (s : State) : (portGoesUp p s).outlets = s.outlets := rfl
@[simp] theorem portGoesUp_report_tallyQueue (p : Port) (s : State) : (portGoesUp p s).report.tallyQueue = s.report.tallyQueue := rfl
@[simp] theorem portGoesUp_report_tallySeq (p : Port) (s : State) : (portGoesUp p s).report.tallySeq = s.report.tallySeq := rfl
@[simp] theorem portGoesUp_report_rxPorts (p : Port) (s : State) : (portGoesUp p s).report.rxPorts = s.report.rxPorts := rfl
@[simp] theorem portGoesUp_report_channel (p : Port) (s : State) : (portGoesUp p s).report.channel = s.report.channel := rfl
@[simp] theorem portGoesUp_report_counters (p : Port) (s : State) : (portGoesUp p s).report.counters = s.report.counters := rfl
@[simp] theorem portGoesUp_pending (p : Port) (s : State) : (portGoesUp p s).pending = s.pending := rfl

/-! ## startTestFire -/

@[simp] theorem startTestFire_resetHeld (k : OutletId) (ms : Nat) (s : State) : (startTestFire k ms s).resetHeld = s.resetHeld := rfl
@[simp] theorem startTestFire_control (k : OutletId) (ms : Nat) (s : State) : (startTestFire k ms s).control = s.control := rfl
@[simp] theorem startTestFire_links (k : OutletId) (ms : Nat) (s : State) : (startTestFire k ms s).links = s.links := rfl
@[simp] theorem startTestFire_relay (k : OutletId) (ms : Nat) (s : State) : (startTestFire k ms s).relay = s.relay := rfl
@[simp] theorem startTestFire_request (k : OutletId) (ms : Nat) (s : State) : (startTestFire k ms s).request = s.request := rfl
@[simp] theorem startTestFire_config (k : OutletId) (ms : Nat) (s : State) : (startTestFire k ms s).config = s.config := rfl
@[simp] theorem startTestFire_position (k : OutletId) (ms : Nat) (s : State) : (startTestFire k ms s).position = s.position := rfl
@[simp] theorem startTestFire_sensor (k : OutletId) (ms : Nat) (s : State) : (startTestFire k ms s).sensor = s.sensor := rfl
@[simp] theorem startTestFire_tracking (k : OutletId) (ms : Nat) (s : State) : (startTestFire k ms s).tracking = s.tracking := rfl
@[simp] theorem startTestFire_route (k : OutletId) (ms : Nat) (s : State) : (startTestFire k ms s).route = s.route := rfl
@[simp] theorem startTestFire_report (k : OutletId) (ms : Nat) (s : State) : (startTestFire k ms s).report = s.report := rfl
@[simp] theorem startTestFire_pending (k : OutletId) (ms : Nat) (s : State) : (startTestFire k ms s).pending = s.pending := rfl

/-! ## sendU -/

@[simp] theorem sendU_resetHeld (src : TxSource) (f : Frame) (s : State) : (sendU src f s).resetHeld = s.resetHeld := rfl
@[simp] theorem sendU_control (src : TxSource) (f : Frame) (s : State) : (sendU src f s).control = s.control := rfl
@[simp] theorem sendU_links (src : TxSource) (f : Frame) (s : State) : (sendU src f s).links = s.links := rfl
@[simp] theorem sendU_relay_address (src : TxSource) (f : Frame) (s : State) : (sendU src f s).relay.address = s.relay.address := rfl
@[simp] theorem sendU_relay_downQueue (src : TxSource) (f : Frame) (s : State) : (sendU src f s).relay.downQueue = s.relay.downQueue := rfl
@[simp] theorem sendU_relay_upQueue (src : TxSource) (f : Frame) (s : State) : (sendU src f s).relay.upQueue = s.relay.upQueue := rfl
@[simp] theorem sendU_relay_handoffQueue (src : TxSource) (f : Frame) (s : State) : (sendU src f s).relay.handoffQueue = s.relay.handoffQueue := rfl
@[simp] theorem sendU_relay_uTurn (src : TxSource) (f : Frame) (s : State) : (sendU src f s).relay.uTurn = s.relay.uTurn := rfl
@[simp] theorem sendU_relay_dTurn (src : TxSource) (f : Frame) (s : State) : (sendU src f s).relay.dTurn = s.relay.dTurn := rfl
@[simp] theorem sendU_relay_txD (src : TxSource) (f : Frame) (s : State) : (sendU src f s).relay.txD = s.relay.txD := rfl
@[simp] theorem sendU_request (src : TxSource) (f : Frame) (s : State) : (sendU src f s).request = s.request := rfl
@[simp] theorem sendU_config (src : TxSource) (f : Frame) (s : State) : (sendU src f s).config = s.config := rfl
@[simp] theorem sendU_position (src : TxSource) (f : Frame) (s : State) : (sendU src f s).position = s.position := rfl
@[simp] theorem sendU_sensor (src : TxSource) (f : Frame) (s : State) : (sendU src f s).sensor = s.sensor := rfl
@[simp] theorem sendU_tracking (src : TxSource) (f : Frame) (s : State) : (sendU src f s).tracking = s.tracking := rfl
@[simp] theorem sendU_route (src : TxSource) (f : Frame) (s : State) : (sendU src f s).route = s.route := rfl
@[simp] theorem sendU_outlets (src : TxSource) (f : Frame) (s : State) : (sendU src f s).outlets = s.outlets := rfl
@[simp] theorem sendU_report (src : TxSource) (f : Frame) (s : State) : (sendU src f s).report = s.report := rfl
@[simp] theorem sendU_pending (src : TxSource) (f : Frame) (s : State) : (sendU src f s).pending = s.pending := rfl

/-! ## sendD -/

@[simp] theorem sendD_resetHeld (src : TxSource) (f : Frame) (s : State) : (sendD src f s).resetHeld = s.resetHeld := rfl
@[simp] theorem sendD_control (src : TxSource) (f : Frame) (s : State) : (sendD src f s).control = s.control := rfl
@[simp] theorem sendD_links (src : TxSource) (f : Frame) (s : State) : (sendD src f s).links = s.links := rfl
@[simp] theorem sendD_relay_address (src : TxSource) (f : Frame) (s : State) : (sendD src f s).relay.address = s.relay.address := rfl
@[simp] theorem sendD_relay_downQueue (src : TxSource) (f : Frame) (s : State) : (sendD src f s).relay.downQueue = s.relay.downQueue := rfl
@[simp] theorem sendD_relay_upQueue (src : TxSource) (f : Frame) (s : State) : (sendD src f s).relay.upQueue = s.relay.upQueue := rfl
@[simp] theorem sendD_relay_handoffQueue (src : TxSource) (f : Frame) (s : State) : (sendD src f s).relay.handoffQueue = s.relay.handoffQueue := rfl
@[simp] theorem sendD_relay_uTurn (src : TxSource) (f : Frame) (s : State) : (sendD src f s).relay.uTurn = s.relay.uTurn := rfl
@[simp] theorem sendD_relay_dTurn (src : TxSource) (f : Frame) (s : State) : (sendD src f s).relay.dTurn = s.relay.dTurn := rfl
@[simp] theorem sendD_relay_txU (src : TxSource) (f : Frame) (s : State) : (sendD src f s).relay.txU = s.relay.txU := rfl
@[simp] theorem sendD_request (src : TxSource) (f : Frame) (s : State) : (sendD src f s).request = s.request := rfl
@[simp] theorem sendD_config (src : TxSource) (f : Frame) (s : State) : (sendD src f s).config = s.config := rfl
@[simp] theorem sendD_position (src : TxSource) (f : Frame) (s : State) : (sendD src f s).position = s.position := rfl
@[simp] theorem sendD_sensor (src : TxSource) (f : Frame) (s : State) : (sendD src f s).sensor = s.sensor := rfl
@[simp] theorem sendD_tracking (src : TxSource) (f : Frame) (s : State) : (sendD src f s).tracking = s.tracking := rfl
@[simp] theorem sendD_route (src : TxSource) (f : Frame) (s : State) : (sendD src f s).route = s.route := rfl
@[simp] theorem sendD_outlets (src : TxSource) (f : Frame) (s : State) : (sendD src f s).outlets = s.outlets := rfl
@[simp] theorem sendD_report (src : TxSource) (f : Frame) (s : State) : (sendD src f s).report = s.report := rfl
@[simp] theorem sendD_pending (src : TxSource) (f : Frame) (s : State) : (sendD src f s).pending = s.pending := rfl

/-! ## What an operation writes -/

@[simp] theorem setTracking_tracking (q : List ItemRecord) (s : State) : (setTracking q s).tracking = q := rfl

@[simp] theorem setTracking_watch (q : List ItemRecord) (s : State) :
    (setTracking q s).position.watch =
      if watchActive { s with tracking := q } then some (s.position.watch.getD ⟨0, false⟩) else none := rfl

@[simp] theorem enterMode_mode (m : Mode) (s : State) : (enterMode m s).control.mode = m := rfl

@[simp] theorem applyConfig_config (c : StationConfig) (s : State) : (applyConfig c s).config = c := rfl

@[simp] theorem placeFrame_slot (f : Frame) (s : State) : (placeFrame f s).request.slot = some f := rfl

@[simp] theorem reply_slot (num code : Byte) (st : Status) (data : List Byte) (s : State) :
    (reply num code st data s).request.slot = some (replyFrame s.relay.address num code st data) := rfl

@[simp] theorem reply_cache (num code : Byte) (st : Status) (data : List Byte) (s : State) :
    (reply num code st data s).request.cache = some (num, replyFrame s.relay.address num code st data) := rfl

@[simp] theorem pushHandoff_queue (f : Frame) (s : State) :
    (pushHandoff f s).relay.handoffQueue = s.relay.handoffQueue ++ [f] := rfl

@[simp] theorem offerTally_seq (t : Tally) (s : State) : (offerTally t s).report.tallySeq = s.report.tallySeq + 1 := by
  unfold offerTally; split <;> rfl

@[simp] theorem setLink_get (p : Port) (l : LinkPort) (s : State) : (setLink p l s).links.get p = l := by
  simp [setLink]

theorem setLink_get_of_ne {p q : Port} (h : q ≠ p) (l : LinkPort) (s : State) : (setLink p l s).links.get q = s.links.get q :=
  PerPort.get_set_of_ne _ h l

@[simp] theorem setLink_setLink (p : Port) (l m : LinkPort) (s : State) : setLink p m (setLink p l s) = setLink p m s := by
  simp [setLink]

@[simp] theorem bump_setLink (c : Counter) (p : Port) (l : LinkPort) (s : State) :
    bump c (setLink p l s) = setLink p l (bump c s) := rfl

@[simp] theorem refreshOutputs_outlet (s : State) (k : OutletId) :
    ((refreshOutputs s).outlets.get k) = { s.outlets.get k with output := outputDriven s k } := by
  simp [refreshOutputs]

@[simp] theorem clearSchedules_outlet (s : State) (k : OutletId) :
    ((clearSchedules s).outlets.get k) = { s.outlets.get k with schedule := [] } := by
  simp [clearSchedules]

@[simp] theorem endTestFires_outlet (s : State) (k : OutletId) :
    ((endTestFires s).outlets.get k) = { s.outlets.get k with testFire := none } := by
  simp [endTestFires]

end Sys2Proof.Machine
end

