-- ==== Sys2Proof/Laws/Ops.lean ====
section
/-! SUPPORT. Laws/Ops.lean: what each shared operation does, said once, in the terms of Safety.lean, so that a proof cites the lemma and
does not unfold the operation. -/

namespace Sys2Proof.Machine

open Sys2Proof.Safety

/-! ## Positions and outputs -/

theorem atOrPast_eq (x y : Pos) : atOrPast x y = decide (AtOrPast x y) := rfl

theorem atOrPast_iff (x y : Pos) : atOrPast x y = true ↔ AtOrPast x y := by simp [atOrPast_eq]

theorem windowContains_eq (w : Window) (x : Pos) : windowContains w x = inside w x := rfl

theorem outputDriven_eq (s : State) (k : OutletId) : outputDriven s k = driven s k := by
  unfold outputDriven driven
  split <;> simp_all [windowContains_eq]

theorem refreshOutputs_eq (s : State) : refreshOutputs s = drive s := by
  simp [refreshOutputs, drive, outputDriven_eq]

/-! ## Counters, sources and tallies -/

theorem bumpBy_eq (c : Counter) (n : Nat) (s : State) : bumpBy c n s = countedBy (counterIndex c) n s := rfl

theorem bump_eq (c : Counter) (s : State) : bump c s = counted (counterIndex c) s := rfl

theorem countUp_eq (n : Byte) : countUp n = BitVec.ofNat 8 (min 255 (n.toNat + 1)) := by
  unfold countUp
  split
  · subst_vars; rfl
  · apply BitVec.eq_of_toNat_eq
    have h1 : n.toNat < 256 := n.isLt
    have h2 : n.toNat ≠ 255 := fun h => by
      apply ‹¬ n = 255›
      apply BitVec.eq_of_toNat_eq
      simpa using h
    simp [BitVec.toNat_add]
    omega

theorem occur_eq (src : Source) (s : State) : occur src s = raised (sourceIndex src) s := by
  unfold occur raised raisedBy
  rw [countUp_eq]

theorem occurLinkChange_eq (p : Port) (s : State) : occurLinkChange p s = linkChanged p s := by
  unfold occurLinkChange linkChanged
  rw [occur_eq]
  cases p <;> rfl

theorem counterIndex_rxError (p : Port) (e : RxKind) : counterIndex (.rxError p e) = rxCounter p e := by
  cases p <;> cases e <;> rfl

theorem raiseFlag_eq (e : RxKind) (f : ErrorFlags) : raiseFlag e f = flagged e f := by
  cases e <;> simp [raiseFlag, flagged]

theorem takeRxError_eq (p : Port) (e : RxKind) (s : State) : takeRxError p e s = rxErred p e s := by
  unfold takeRxError rxErred occurRxError
  simp only [occur_eq, bump_eq, counterIndex_rxError, raiseFlag_eq]
  cases p <;> rfl

theorem destBytes_eq (d : Option (BitVec 12)) : destBytes d = destinationBytes d := by
  cases d with
  | none => rfl
  | some d =>
    simp only [destBytes, destinationBytes, be16, List.cons.injEq, and_true]
    constructor
    · apply BitVec.eq_of_getLsbD_eq
      intro i hi
      simp only [BitVec.getLsbD_extractLsb', BitVec.getLsbD_or, BitVec.getLsbD_setWidth]
      have : i = 0 ∨ i = 1 ∨ i = 2 ∨ i = 3 ∨ i = 4 ∨ i = 5 ∨ i = 6 ∨ i = 7 := by omega
      rcases this with h | h | h | h | h | h | h | h <;> subst h <;> simp
    · apply BitVec.eq_of_getLsbD_eq
      intro i hi
      simp only [BitVec.getLsbD_extractLsb', BitVec.getLsbD_or, BitVec.getLsbD_setWidth]
      have : i = 0 ∨ i = 1 ∨ i = 2 ∨ i = 3 ∨ i = 4 ∨ i = 5 ∨ i = 6 ∨ i = 7 := by omega
      rcases this with h | h | h | h | h | h | h | h <;> subst h <;> simp

/-- The outlet byte of a tally, 0xFF for none. -/
def tallyOutletByte (t : Tally) : Byte :=
  match t.outlet with
  | none => 0xFF
  | some k => BitVec.ofNat 8 k.val

theorem tallyFrame_eq (a : BitVec 6) (seq : Byte) (t : Tally) :
    tallyFrame a seq t =
      tally a (BitVec.ofNat 8 (outcomeCode t.outcome)) t.tag t.dest (tallyOutletByte t) (BitVec.ofNat 8 (reasonByte t.reason))
        t.position t.len seq := by
  unfold tallyFrame tally tallyOutletByte
  rw [destBytes_eq]
  rcases t with ⟨o, tag, dest, outlet, reason, pos, len⟩
  cases outlet <;> cases len <;> simp [kindTally, addressByte, byteOf, be16, be32, bit]

theorem offerTally_eq (t : Tally) (s : State) :
    offerTally t s =
      tallied (tally s.relay.address (BitVec.ofNat 8 (outcomeCode t.outcome)) t.tag t.dest (tallyOutletByte t)
        (BitVec.ofNat 8 (reasonByte t.reason)) t.position t.len) s := by
  unfold offerTally tallied
  simp only [occur_eq, bump_eq, tallyFrame_eq]
  rfl

/-! ## The tracking queue -/

/-- In TRACKING the queue is replaced and the stall watch follows (R71). -/
theorem setTracking_eq (q : List ItemRecord) (s : State) (h : s.control.mode = .tracking) : setTracking q s = queueNow q s := by
  unfold setTracking syncWatch queueNow watchActive
  simp only [h]
  by_cases hq : q = []
  · simp [hq]
  · by_cases hs : s.config.stallTime = 0
    · simp [hs]
    · have : q.isEmpty = false := by simpa using hq
      simp only [hq, hs, this]
      cases s.position.watch <;> simp_all

theorem eraseP_first {p : ItemRecord → Bool} {pre post : List ItemRecord} {r : ItemRecord} (hr : p r = true)
    (hp : ∀ x ∈ pre, p x = false) : (pre ++ r :: post).eraseP p = pre ++ post := by
  induction pre with
  | nil => simp [hr]
  | cons a pre ih =>
    have ha := hp a (by simp)
    simp only [List.cons_append]
    rw [List.eraseP_cons_of_neg (by simp [ha])]
    rw [ih (fun x hx => hp x (by simp [hx]))]

theorem find_first {p : ItemRecord → Bool} {pre post : List ItemRecord} {r : ItemRecord} (hr : p r = true)
    (hp : ∀ x ∈ pre, p x = false) : (pre ++ r :: post).find? p = some r := by
  induction pre with
  | nil => simp [hr]
  | cons a pre ih => simp [hp a (by simp), ih (fun x hx => hp x (by simp [hx]))]

theorem replace_first {p : ItemRecord → Bool} {pre post : List ItemRecord} {r x : ItemRecord} (hr : p r = true)
    (hp : ∀ y ∈ pre, p y = false) : replaceFirst p x (pre ++ r :: post) = pre ++ x :: post := by
  induction pre with
  | nil => simp [replaceFirst, hr]
  | cons a pre ih => simp [replaceFirst, hp a (by simp), ih (fun y hy => hp y (by simp [hy]))]

/-- A removal in TRACKING (R22): the record leaves, its outcome is counted, its tally is offered unless it is PASSED with tally_passes
off. -/
theorem removeRecord_eq {p : ItemRecord → Bool} {pre post : List ItemRecord} {q : ItemRecord} (r : ItemRecord) (o : OutcomeKind)
    (x : Pos) (s : State) (hm : s.control.mode = .tracking) (ht : s.tracking = pre ++ q :: post) (hq : p q = true)
    (hp : ∀ y ∈ pre, p y = false) :
    removeRecord p r o x s =
      if o ≠ .passed ∨ s.config.tallyPasses = true then
        offerTally (recordTally o r x) (counted (counterIndex (.outcome o)) (queueNow (pre ++ post) s))
      else counted (counterIndex (.outcome o)) (queueNow (pre ++ post) s) := by
  dsimp only [removeRecord]
  rw [ht, eraseP_first hq hp, setTracking_eq _ _ hm, bump_eq]
  have : givesTally (counted (counterIndex (.outcome o)) (queueNow (pre ++ post) s)) o = true
      ↔ (o ≠ .passed ∨ s.config.tallyPasses = true) := by
    simp [givesTally, counted, countedBy, queueNow]
  by_cases h : o ≠ .passed ∨ s.config.tallyPasses = true
  · rw [if_pos h, if_pos (this.mpr h)]
  · rw [if_neg h, if_neg (fun e => h (this.mp e))]

/-! ## Eyes -/

theorem edgeDue_of_waits {e : EyeId} {blocked : Bool} {x : Pos} {s : State} (h : Waits e blocked x s) :
    edgeDue s e blocked = some x := by
  unfold Waits at h
  unfold edgeDue
  cases hc : (eyeOf s.sensor e).cand with
  | none => simp [hc] at h
  | some c =>
    simp only [hc, Option.map_some, Option.some.injEq, Prod.mk.injEq] at h
    simp [h.1, h.2.1, h.2.2]

theorem edgeDue_none {e : EyeId} {blocked : Bool} {s : State} (h : ∀ x, ¬ Waits e blocked x s) : edgeDue s e blocked = none := by
  unfold Waits at h
  unfold edgeDue
  cases hc : (eyeOf s.sensor e).cand with
  | none => rfl
  | some c =>
    have := h c.stamp
    simp only [hc, Option.map_some, Option.some.injEq, Prod.mk.injEq, true_and, not_and] at this
    simp only [Bool.and_eq_true, beq_iff_eq]
    rw [if_neg (fun hh => this hh.2 hh.1)]

theorem accepted_eq (e : EyeId) (blocked : Bool) (x : Pos) (s : State) :
    { s with sensor := acceptEdge e blocked x s.sensor } = turned e blocked x s := by
  cases e <;> cases blocked <;> rfl

@[simp] theorem turned_control (e : EyeId) (b : Bool) (x : Pos) (s : State) : (turned e b x s).control = s.control := rfl
@[simp] theorem turned_config (e : EyeId) (b : Bool) (x : Pos) (s : State) : (turned e b x s).config = s.config := rfl
@[simp] theorem turned_tracking (e : EyeId) (b : Bool) (x : Pos) (s : State) : (turned e b x s).tracking = s.tracking := rfl
@[simp] theorem turned_relay (e : EyeId) (b : Bool) (x : Pos) (s : State) : (turned e b x s).relay = s.relay := rfl
@[simp] theorem turned_route (e : EyeId) (b : Bool) (x : Pos) (s : State) : (turned e b x s).route = s.route := rfl
@[simp] theorem turned_outlets (e : EyeId) (b : Bool) (x : Pos) (s : State) : (turned e b x s).outlets = s.outlets := rfl
@[simp] theorem turned_position (e : EyeId) (b : Bool) (x : Pos) (s : State) : (turned e b x s).position = s.position := rfl
@[simp] theorem turned_lanes (e : EyeId) (b : Bool) (x : Pos) (s : State) : (turned e b x s).sensor.lanes = s.sensor.lanes := by
  cases e <;> rfl

/-- The command of an edge that waits (R75). -/
theorem edgeCommand_eq {e : EyeId} {blocked : Bool} {x : Pos} {s : State} (h : Waits e blocked x s) :
    edgeCommand e blocked s = trackEdge e blocked x (turned e blocked x s) := by
  unfold edgeCommand
  rw [edgeDue_of_waits h]
  simp only [takeEdge, accepted_eq]

theorem exec_edgeCommandOf (e : EyeId) (blocked : Bool) (s : State) :
    exec (edgeCommandOf e blocked) s = .next (edgeCommand e blocked s) := by
  cases e <;> cases blocked <;> rfl

/-! ## Frames -/

theorem offerDown_eq (f : Frame) (s : State) : offerDown f s = relayedDown f s := by
  unfold offerDown relayedDown
  by_cases h : s.links.d.up = true ∧ s.relay.downQueue.length < 8
  · rw [if_pos h, if_pos (by simp only [Bool.and_eq_true, decide_eq_true_eq]; exact h)]
  · rw [if_neg h, if_neg (by simp only [Bool.and_eq_true, decide_eq_true_eq]; exact h)]; rfl

theorem itemFrame_eq (i : ItemFields) :
    itemFrame i = item i.tag i.dest i.plan i.flags i.hop i.len i.lenPresent i.trail := by
  unfold itemFrame item
  rw [destBytes_eq]
  have hf : itemFlagsByte i.flags i.lenPresent =
      BitVec.ofNat 8 ((if i.flags.stray then 1 else 0) + (if i.flags.adopted then 2 else 0) + (if i.flags.forcePass then 4 else 0)
        + (if i.flags.trailFull then 8 else 0) + (if i.lenPresent then 128 else 0)) := by
    rcases i with ⟨_, _, _, ⟨a, b, c, d⟩, _, _, e, _⟩
    cases a <;> cases b <;> cases c <;> cases d <;> cases e <;> rfl
  rw [hf]
  simp [be16, noteBytes, byteOf, kindItem]

theorem frameSymbols_eq (f : Frame) : frameSymbols f = wire f := by
  simp [frameSymbols, wire, frameBytes, be16, byteOf]

/-- A whole frame on a port that receives (R140, R143, R144). -/
theorem receiveFrame_eq (p : Port) (f : Frame) (s : State) (h : Hears p s) :
    receiveFrame p f s =
      if 80 < f.payload.length then takeRxError p .oversize (heard p s)
      else if kindFits p f.kind = false then takeRxError p .misdirected (heard p s)
      else frameArrival p f (heard p s) := by
  have hh : setFramer p .between (setViolationRun p 0
      (if assembling (s.links.get p) then takeRxError p .truncated s else s)) = heard p s := by
    unfold heard assembling
    cases s.links.get p with
    | mk up al vi fr fl =>
      cases fr <;> simp only [Bool.false_eq_true, if_false, if_true, takeRxError_eq, setFramer, setViolationRun] <;>
        simp [setLink]
  unfold receiveFrame
  simp only [h.1, h.2, Bool.not_true, Bool.or_self, Bool.false_eq_true, if_false, hh, Config.maxPayload]
  cases kindFits p f.kind <;> simp

theorem heard_fields (p : Port) (s : State) :
    (heard p s).resetHeld = s.resetHeld ∧ (heard p s).control = s.control ∧ (heard p s).relay = s.relay
    ∧ (heard p s).request = s.request ∧ (heard p s).config = s.config ∧ (heard p s).position = s.position
    ∧ (heard p s).sensor = s.sensor ∧ (heard p s).tracking = s.tracking ∧ (heard p s).route = s.route
    ∧ (heard p s).outlets = s.outlets ∧ (heard p s).pending = s.pending
    ∧ (heard p s).report.tallyQueue = s.report.tallyQueue ∧ (heard p s).report.tallySeq = s.report.tallySeq
    ∧ (heard p s).report.channel = s.report.channel ∧ (heard p s).report.linkPorts = s.report.linkPorts := by
  unfold heard
  cases (s.links.get p).framer <;> exact ⟨rfl, rfl, rfl, rfl, rfl, rfl, rfl, rfl, rfl, rfl, rfl, rfl, rfl, rfl, rfl⟩

@[simp] theorem heard_control (p : Port) (s : State) : (heard p s).control = s.control := (heard_fields p s).2.1
@[simp] theorem heard_relay (p : Port) (s : State) : (heard p s).relay = s.relay := (heard_fields p s).2.2.1
@[simp] theorem heard_request (p : Port) (s : State) : (heard p s).request = s.request := (heard_fields p s).2.2.2.1
@[simp] theorem heard_config (p : Port) (s : State) : (heard p s).config = s.config := (heard_fields p s).2.2.2.2.1
@[simp] theorem heard_position (p : Port) (s : State) : (heard p s).position = s.position := (heard_fields p s).2.2.2.2.2.1
@[simp] theorem heard_sensor (p : Port) (s : State) : (heard p s).sensor = s.sensor := (heard_fields p s).2.2.2.2.2.2.1
@[simp] theorem heard_tracking (p : Port) (s : State) : (heard p s).tracking = s.tracking := (heard_fields p s).2.2.2.2.2.2.2.1
@[simp] theorem heard_route (p : Port) (s : State) : (heard p s).route = s.route := (heard_fields p s).2.2.2.2.2.2.2.2.1
@[simp] theorem heard_outlets (p : Port) (s : State) : (heard p s).outlets = s.outlets := (heard_fields p s).2.2.2.2.2.2.2.2.2.1

theorem reply_eq (num code : Byte) (st : Status) (data : List Byte) (s : State) :
    reply num code st data s = answered num code (statusCode st) data s := rfl

theorem replyBusy_eq (num code : Byte) (s : State) : replyBusy num code s = busied num code s := rfl

/-- A request addressed to this station that tests 1 to 3 let through is executed (R151, R165). -/
theorem receiveRequest_eq (addr num code : Byte) (args : List Byte) (s : State) (h : Takes addr num args.length s) :
    receiveFrame .u (requestFrame addr num code args) s = executeRequest num code args (heard .u s) := by
  obtain ⟨hh, hm, ha, hs, hc, hn, hl⟩ := h
  rw [receiveFrame_eq .u _ s hh]
  have h80 : ¬ 80 < (num :: code :: args).length := by simp; omega
  simp only [requestFrame, h80, if_false, kindFits, kindUpstream, kindRequest, frameArrival, frameFromU, takeRequest, heard_control,
    heard_relay, addressByte, ha, takeAddressedPayload, takeAddressed, heard_request, hs, heard_route, hc, answerRequest, kindEnumerate]
  have h1 : (2 : Byte).msb = false := by decide
  simp only [h1, Bool.not_false, Bool.true_eq_false, if_false, show ((2 : Byte) = 3) = False by decide, hm, if_true,
    Option.isSome_none, Bool.false_eq_true, false_and]
  cases hca : s.request.cache with
  | none => rfl
  | some nf =>
    obtain ⟨n, f⟩ := nf
    simp only [hca, Option.map_some, ne_eq, Option.some.injEq] at hn
    simp only [hn, if_false]

/-- The arguments of a code are as long as Table 11-4 says, and the owning rule is reached (R165). -/
theorem executeRequest_eq (num : Byte) (c : RequestCode) (args : List Byte) (s : State)
    (h : argumentLength c = none ∨ argumentLength c = some args.length) :
    executeRequest num (requestByte c) args s = owningRule c num args s := by
  unfold executeRequest
  have hc : requestOfByte (requestByte c) = some c := by cases c <;> rfl
  rw [hc]
  rcases h with h | h <;> simp [h]

end Sys2Proof.Machine
end

