-- ==== Sys2Proof/Laws/Link.lean ====
section
/-! SUPPORT. Laws/Link.lean: what the operations of a port do, said once in the terms of Safety.lean. -/

namespace Sys2Proof.Machine

open Sys2Proof.Safety

theorem assembling_iff (p : Port) (s : State) : assembling (s.links.get p) = true ↔ Assembles p s := by
  unfold assembling Assembles
  cases (s.links.get p).framer <;> simp

theorem assembling_eq_false {p : Port} {s : State} (h : ¬ Assembles p s) : assembling (s.links.get p) = false := by
  simpa using fun a => h ((assembling_iff p s).mp a)

/-- A port that comes UP (R136, R138). -/
theorem portGoesUp_eq (p : Port) (s : State) : portGoesUp p s = wentUp p s := by
  simp [portGoesUp, wentUp, occurLinkChange_eq, setLink, Config.alignSymbols]

@[simp] theorem linkChanged_relay (p : Port) (s : State) : (linkChanged p s).relay = s.relay := rfl
@[simp] theorem linkChanged_links (p : Port) (s : State) : (linkChanged p s).links = s.links := rfl

/-- A port that goes DOWN with no frame in assembly (R137, R138, R156). -/
theorem portGoesDown_eq_of_not_assembles (p : Port) (s : State) (h : ¬ Assembles p s) : portGoesDown p s = wentDown p s := by
  have h' := assembling_eq_false h
  cases p <;>
    simp [portGoesDown, wentDown, h', occurLinkChange_eq, setLink, discardDownQueue, bumpBy_eq, counterIndex]

/-- A port that goes DOWN with a frame in assembly, which is truncated first (R137). -/
theorem portGoesDown_eq_of_assembles (p : Port) (s : State) (h : Assembles p s) :
    portGoesDown p s = wentDown p (rxErred p .truncated s) := by
  rw [← assembling_iff] at h
  cases p <;>
    simp [portGoesDown, wentDown, h, occurLinkChange_eq, setLink, discardDownQueue, bumpBy_eq, counterIndex, takeRxError_eq]

theorem wentDown_framed (p : Port) (f : Framer) (n : Nat) (s : State) : wentDown p (framed p f n s) = wentDown p s := by
  cases p <;> simp [wentDown, framed, linkChanged, raised, raisedBy]

/-- A violation symbol at an UP port (R137, R142, R145). -/
theorem violationSymbol_eq (p : Port) (s : State) :
    violationSymbol p s =
      let t := rxErred p (if assembling (s.links.get p) then .truncated else .violation) s
      if 3 ≤ (s.links.get p).violationRun then wentDown p t else framed p .discard ((s.links.get p).violationRun + 1) t := by
  unfold violationSymbol
  simp only [takeRxError_eq]
  have e : ∀ t n, setViolationRun p n (setFramer p .discard t) = framed p .discard n t := by
    intro t n
    cases p <;> rfl
  rw [e]
  by_cases h : 3 ≤ (s.links.get p).violationRun
  · rw [if_pos (by simp [Config.violationLimit]; omega), if_pos h, portGoesDown_eq_of_not_assembles, wentDown_framed]
    rintro ⟨b, hb⟩
    cases p <;> simp [framed, PerPort.get, PerPort.set] at hb
  · rw [if_neg (by simp [Config.violationLimit]; omega), if_neg h]

/-- The byte that makes a frame oversize (R143). -/
theorem oversizeByte_iff (bytes : List Byte) (x : Byte) : oversizeByte bytes x = true ↔ Overfull bytes x := by
  unfold oversizeByte Overfull
  match bytes with
  | [] => simp
  | [_] => simp
  | [_, _] =>
    simp [Config.maxPayload]
    exact decide_eq_true_iff
  | _ :: _ :: n :: rest => simp

/-- The EOF of an incomplete frame (R140, R142). -/
theorem judgeFrame_of_incomplete (p : Port) {bytes : List Byte} (h : Incomplete bytes) : judgeFrame p bytes = .inl .truncated := by
  rcases h with h | ⟨k, a, n, rest, rfl, hr⟩
  · match bytes, h with
    | [], _ => rfl
    | [_], _ => rfl
    | [_, _], _ => rfl
    | _ :: _ :: _ :: _, h => simp at h; omega
  · simp [judgeFrame, hr]

end Sys2Proof.Machine
end

