-- ==== Sys2Proof/Laws/Memory.lean ====
section
/-! SUPPORT. Laws/Memory.lean: the bank store: every operation keeps the canonical form, a write is read back and touches no other
address, and equal contents are equal data. -/

namespace Sys2Proof.Machine

theorem memRead_of_lt_low (low : Nat) (m : Memory) (h : memWfFrom low m = true) (a : Nat) (ha : a < low) : memRead m a = 0 := by
  induction m generalizing low with
  | nil => rfl
  | cons c m ih =>
    obtain ⟨x, y⟩ := c
    simp only [memWfFrom, Bool.and_eq_true, decide_eq_true_eq] at h
    simp only [memRead]
    rw [if_neg (by omega)]
    exact ih (x + 1) h.2 (by omega)

theorem memWfFrom_mono {low low' : Nat} (hl : low' ≤ low) (m : Memory) (h : memWfFrom low m = true) : memWfFrom low' m = true := by
  cases m with
  | nil => rfl
  | cons c m =>
    simp only [memWfFrom, Bool.and_eq_true, decide_eq_true_eq] at h ⊢
    exact ⟨⟨by omega, h.1.2⟩, h.2⟩

theorem memWrite_wfFrom (low : Nat) (m : Memory) (h : memWfFrom low m = true) (a : Nat) (ha : low ≤ a) (v : Byte) :
    memWfFrom low (memWrite m a v) = true := by
  induction m generalizing low with
  | nil =>
    simp only [memWrite]
    split <;> simp_all [memWfFrom]
  | cons c m ih =>
    obtain ⟨x, y⟩ := c
    have hc := h
    simp only [memWfFrom, Bool.and_eq_true, decide_eq_true_eq] at h
    simp only [memWrite]
    split
    · split
      · exact hc
      · simp only [memWfFrom, Bool.and_eq_true, decide_eq_true_eq]
        exact ⟨⟨ha, by assumption⟩, ⟨by omega, h.1.2⟩, h.2⟩
    · split
      · split
        · exact memWfFrom_mono (by omega) m h.2
        · simp only [memWfFrom, Bool.and_eq_true, decide_eq_true_eq]
          subst_vars
          exact ⟨⟨ha, by assumption⟩, h.2⟩
      · simp only [memWfFrom, Bool.and_eq_true, decide_eq_true_eq]
        exact ⟨h.1, ih (x + 1) h.2 (by omega)⟩

/-- A write keeps the canonical form. -/
theorem memWrite_wf (m : Memory) (h : Memory.wf m = true) (a : Nat) (v : Byte) : Memory.wf (memWrite m a v) = true :=
  memWrite_wfFrom 0 m h a (Nat.zero_le a) v

/-- A run of writes keeps the canonical form. -/
theorem memWriteBytes_wf (vs : List Byte) (m : Memory) (h : Memory.wf m = true) (a : Nat) :
    Memory.wf (memWriteBytes m a vs) = true := by
  induction vs generalizing m a with
  | nil => exact h
  | cons v vs ih => exact ih _ (memWrite_wf m h a v) (a + 1)

theorem memRead_memWriteFrom (low : Nat) (m : Memory) (h : memWfFrom low m = true) (a b : Nat) (v : Byte) :
    memRead (memWrite m a v) b = if b = a then v else memRead m b := by
  induction m generalizing low with
  | nil =>
    simp only [memWrite]
    by_cases hv : v = 0
    · simp [hv, memRead]
    · simp only [hv, if_false, memRead]
      by_cases hb : b = a
      · simp [hb]
      · rw [if_neg (fun e => hb e.symm), if_neg hb]
  | cons c m ih =>
    obtain ⟨x, y⟩ := c
    simp only [memWfFrom, Bool.and_eq_true, decide_eq_true_eq] at h
    have hm := memRead_of_lt_low (x + 1) m h.2
    simp only [memWrite]
    split
    · split
      · simp only [memRead]
        by_cases hb : b = a
        · subst hb
          rw [if_neg (by omega), hm b (by omega)]; simp_all
        · simp [hb]
      · simp only [memRead]
        by_cases hb : b = a
        · simp [hb]
        · rw [if_neg (fun e => hb e.symm)]; simp [hb]
    · split
      · split
        · simp only [memRead]
          by_cases hb : b = a
          · subst hb; rw [hm b (by omega)]; simp_all
          · rw [if_neg (show ¬ x = b by omega)]; simp [hb]
        · simp only [memRead]
          by_cases hb : b = a
          · simp [hb]
          · rw [if_neg (fun e => hb e.symm), if_neg (show ¬ x = b by omega)]; simp [hb]
      · simp only [memRead]
        by_cases hx : x = b
        · rw [if_pos hx, if_pos hx, if_neg (by omega)]
        · rw [if_neg hx, if_neg hx]; exact ih (x + 1) h.2

/-- A byte written is read back, and no other byte changes. -/
theorem memRead_memWrite (m : Memory) (h : Memory.wf m = true) (a b : Nat) (v : Byte) :
    memRead (memWrite m a v) b = if b = a then v else memRead m b := memRead_memWriteFrom 0 m h a b v

/-- A run of bytes written is read back, and no byte outside the run changes. -/
theorem memRead_memWriteBytes (vs : List Byte) (m : Memory) (h : Memory.wf m = true) (a b : Nat) :
    memRead (memWriteBytes m a vs) b = if a ≤ b then vs.getD (b - a) (memRead m b) else memRead m b := by
  induction vs generalizing m a with
  | nil => simp [memWriteBytes]
  | cons v vs ih =>
    simp only [memWriteBytes]
    rw [ih _ (memWrite_wf m h a v), memRead_memWrite m h a b]
    by_cases h1 : a + 1 ≤ b
    · rw [if_pos h1, if_neg (show ¬ b = a by omega), if_pos (show a ≤ b by omega), show b - a = (b - (a + 1)) + 1 by omega]
      simp
    · rw [if_neg h1]
      by_cases h2 : b = a
      · subst h2; simp
      · rw [if_neg h2, if_neg (by omega)]

/-- Stores in canonical form that read alike are equal. -/
theorem memory_ext (low : Nat) (m n : Memory) (hm : memWfFrom low m = true) (hn : memWfFrom low n = true)
    (h : ∀ a, memRead m a = memRead n a) : m = n := by
  induction m generalizing low n with
  | nil =>
    cases n with
    | nil => rfl
    | cons c n =>
      obtain ⟨x, y⟩ := c
      simp only [memWfFrom, Bool.and_eq_true, decide_eq_true_eq] at hn
      have := h x
      simp [memRead] at this
      exact absurd this.symm hn.1.2
  | cons c m ih =>
    obtain ⟨x, y⟩ := c
    cases n with
    | nil =>
      simp only [memWfFrom, Bool.and_eq_true, decide_eq_true_eq] at hm
      have := h x
      simp [memRead] at this
      exact absurd this hm.1.2
    | cons d n =>
      obtain ⟨u, w⟩ := d
      simp only [memWfFrom, Bool.and_eq_true, decide_eq_true_eq] at hm hn
      have key : x = u := by
        rcases Nat.lt_trichotomy x u with hl | he | hl
        · have h1 := h x
          simp only [memRead, if_true] at h1
          rw [if_neg (by omega), memRead_of_lt_low (u + 1) n hn.2 x (by omega)] at h1
          exact absurd h1 hm.1.2
        · exact he
        · have h1 := h u
          simp only [memRead, if_true] at h1
          rw [if_neg (by omega), memRead_of_lt_low (x + 1) m hm.2 u (by omega)] at h1
          exact absurd h1.symm hn.1.2
      subst key
      have hy : y = w := by have := h x; simpa [memRead] using this
      subst hy
      have : m = n := by
        apply ih (x + 1) n hm.2 hn.2
        intro a
        by_cases ha : a = x
        · subst ha
          rw [memRead_of_lt_low (a + 1) m hm.2 a (by omega), memRead_of_lt_low (a + 1) n hn.2 a (by omega)]
        · have h1 := h a
          simp only [memRead] at h1
          rwa [if_neg (fun e => ha e.symm), if_neg (fun e => ha e.symm)] at h1
      rw [this]

/-- The banks of the reset state are in canonical form. -/
theorem reset_banks_wf : Memory.wf State.reset.route.a.mem = true ∧ Memory.wf State.reset.route.b.mem = true := ⟨rfl, rfl⟩

/-- A segment written keeps the canonical form of its bank. -/
theorem writeSegment_wf (x : Bank) (h : Memory.wf x.mem = true) (seg : Fin 64) (entries : List Byte) :
    Memory.wf (writeSegment x seg entries).mem = true := memWriteBytes_wf entries x.mem h _

/-- A cleared bank is in canonical form. -/
theorem cleared_wf : Memory.wf Bank.cleared.mem = true := rfl

end Sys2Proof.Machine
end

