-- ==== Sys2Proof/Laws/Requests.lean ====
section
/-! SUPPORT. Laws/Requests.lean: the path of a request and the codes of chapter 11, said once in the terms of Safety.lean. -/

namespace Sys2Proof.Machine

open Sys2Proof.Safety

theorem causeByte_eq (c : Cause) : byteOf (causeCode c) = causeByte c := by cases c <;> rfl

theorem modeByte_eq (m : Mode) : byteOf (modeCode m) = modeByte m := by cases m <;> rfl

theorem bankStateByte_eq (b : BankState) : byteOf (bankStateCode b) = bankStateByte b := by cases b <;> rfl

theorem segByte_eq (x : SegState) : byteOf (segStateCode x) = segByte x := by cases x <;> rfl

theorem channelByte_eq (c : ChannelState) : byteOf (channelCode c) = channelByte c := by cases c <;> rfl

theorem portsByte_eq (p : PortSet) : portSetByte p = portsByte p := by
  rcases p with ⟨a, b⟩
  cases a <;> cases b <;> rfl

theorem of16_two (m : BitVec 16) : of16 (m.extractLsb' 8 8) (m.extractLsb' 0 8) = m := by
  apply BitVec.eq_of_getLsbD_eq
  intro i hi
  simp only [of16, BitVec.getLsbD_append, BitVec.getLsbD_extractLsb']
  rcases Nat.lt_or_ge i 8 with h | h
  · simp [h]
  · have h8 : i - 8 < 8 := by omega
    simp [Nat.not_lt.mpr h, h8, show 8 + (i - 8) = i by omega]

/-- Every REQUEST row is the frame that it spells. -/
theorem exec_requestOf {c : Instr} {addr num code : Byte} {args : List Byte} (s : State)
    (h : requestOf c = some (addr, num, code, args)) : exec c s = .next (receiveFrame .u (requestFrame addr num code args) s) := by
  cases c <;> simp [requestOf] at h
  all_goals first
    | (obtain ⟨rfl, rfl, rfl, rfl⟩ := h; rfl)
    | (rename_i bank _ _ _; cases bank <;> simp at h <;> (obtain ⟨rfl, rfl, rfl, rfl⟩ := h; rfl))

/-- A request addressed to this station goes through the tests of R165. -/
theorem receiveRequest_own {addr num code : Byte} {args : List Byte} {s : State} (h : OwnRequest addr args.length s) :
    receiveFrame .u (requestFrame addr num code args) s = takeAddressed num code args (heard .u s) := by
  obtain ⟨hh, hm, ha, hl⟩ := h
  rw [receiveFrame_eq .u _ s hh]
  have h80 : ¬ 80 < (num :: code :: args).length := by simp; omega
  have h1 : (2 : Byte).msb = false := by decide
  simp only [requestFrame, h80, if_false, kindFits, kindUpstream, kindRequest, frameArrival, frameFromU, takeRequest, heard_control,
    heard_relay, addressByte, ha, takeAddressedPayload, kindEnumerate, h1, Bool.not_false, Bool.true_eq_false,
    show ((2 : Byte) = 3) = False by decide, hm, if_true]

theorem requestOfByte_eq_none_iff (code : Byte) : requestOfByte code = none ↔ argumentBytes code = none ∧ code ≠ 0x02 := by
  revert code
  decide

theorem requestOfByte_of_argumentBytes {code : Byte} {n : Nat} (h : argumentBytes code = some n) :
    ∃ c, requestOfByte code = some c ∧ argumentLength c = some n := by
  have key : ∀ code : Byte, (argumentBytes code).isSome = true →
      (requestOfByte code).bind argumentLength = argumentBytes code := by decide
  have e := key code (by simp [h])
  rw [h] at e
  cases hr : requestOfByte code with
  | none => simp [hr] at e
  | some c => exact ⟨c, rfl, by simpa [hr] using e⟩

/-- A request that the tests before the owning rule let through is the owning rule's. -/
theorem exec_of_takes {c : Instr} {addr num : Byte} {args : List Byte} {s : State} (code : RequestCode)
    (hc : requestOf c = some (addr, num, requestByte code, args)) (ht : Takes addr num args.length s)
    (hl : argumentLength code = none ∨ argumentLength code = some args.length) :
    exec c s = .next (owningRule code num args (heard .u s)) := by
  rw [exec_requestOf s hc, receiveRequest_eq _ _ _ _ _ ht, executeRequest_eq _ _ _ _ hl]

/-- An ITEM in an addressed mode is the tracking unit's (R9, R150). -/
theorem exec_item {addr : Byte} {payload : List Byte} {s : State} (h : Hears .u s) (hl : payload.length ≤ 80)
    (hm : s.control.mode ≠ .transparent) : exec (.item addr payload) s = .next (takeItem payload (heard .u s)) := by
  simp only [exec, execItem]
  rw [receiveFrame_eq _ _ _ h, if_neg (by simpa using hl), if_neg (by simp [kindFits, kindUpstream, kindItem])]
  simp [frameArrival, frameFromU, kindItem, kindEnumerate, kindRequest, hm]

/-- An ENUMERATE is the relay unit's in every mode (R150, R152). -/
theorem exec_enumerate {v : Byte} {payload : List Byte} {s : State} (h : Hears .u s) (hl : payload.length ≤ 80) :
    exec (.enumerate v payload) s = .next (takeEnumerate ⟨3, v, payload⟩ (heard .u s)) := by
  simp only [exec, execEnumerate]
  rw [receiveFrame_eq _ _ _ h, if_neg (by simpa using hl), if_neg (by simp [kindFits, kindUpstream, kindEnumerate]; decide)]
  simp [frameArrival, frameFromU, kindEnumerate]

/-- A segment's bytes are well formed exactly where each of its entries is (R90, R183). -/
theorem entriesWellFormed_iff (l : List Byte) (n : Nat) (hl : l.length = 4 * n) :
    entriesWellFormed l = true ↔ ∀ j, j < n → entryWellFormed (l.getD (4*j) 0) (l.getD (4*j+1) 0) = true := by
  induction n generalizing l with
  | zero => match l, hl with | [], _ => simp [entriesWellFormed]
  | succ n ih =>
    match l, hl with
    | a :: b :: c :: d :: rest, hl =>
      have hr : rest.length = 4 * n := by simp at hl; omega
      simp only [entriesWellFormed, Bool.and_eq_true, ih rest hr]
      constructor
      · rintro ⟨h1, h2⟩ j hj
        cases j with
        | zero => simpa using h1
        | succ j => have := h2 j (by omega); simpa [Nat.mul_succ] using this
      · intro h
        refine ⟨by simpa using h 0 (by omega), fun j hj => ?_⟩
        have := h (j+1) (by omega); simpa [Nat.mul_succ] using this

end Sys2Proof.Machine
end

