-- ==== Sys2Proof/Laws/Tracking.lean ====
section
/-! SUPPORT. Laws/Tracking.lean: what the tracking unit's operations decide, said once in the terms of Safety.lean. -/

namespace Sys2Proof.Machine

open Sys2Proof.Safety

theorem usable_eq (s : State) (k : OutletId) : usable s k.val = outletUsable s k := by
  fin_cases k <;> simp [usable, outletUsable, outletPresent, PerOutlet.get]

theorem measure_eq (p t : Pos) : Machine.measure p t = measuredAs p t := by
  unfold Machine.measure measuredAs
  by_cases h : (t - p).toNat < 2147483648
  · rw [if_pos (by rw [atOrPast_iff]; exact h), if_pos h]
    split
    · rw [Nat.min_eq_left (by omega)]; rfl
    · rw [Nat.min_eq_right (by omega)]
      apply BitVec.eq_of_toNat_eq; simp
  · rw [if_neg (by rw [atOrPast_iff]; exact h), if_neg h]

theorem committedBank_of_findsBank (id : BankId) (r : ItemRecord) (s : State) (h : FindsBank id r s) :
    committedBank s.route r.plan = some id := by
  obtain ⟨h1, h2⟩ := h
  cases id with
  | a => simp only [bankOf] at h1; simp [committedBank, h1]
  | b => simp only [bankOf] at h1; simp [committedBank, h1, h2 rfl]

theorem bankEntry_of_wellFormed (s : State) (id : BankId) (d : BitVec 12)
   (hw : entryWellFormed (entryByte s id d.toNat 0) (entryByte s id d.toNat 1) = true) :
   let e := bankEntry (bankOf s.route id).mem d.toNat
   (e.divert = true ↔ entryByte s id d.toNat 0 = 1) ∧ e.primary.val = entryPrimary s id d.toNat ∧
   e.maxLength.toNat = entryLimit s id d.toNat ∧
   (e.alternate = if h : entryAlternate s id d.toNat < 4 then some ⟨_, h⟩ else none) := by
  simp only [entryWellFormed, Bool.and_eq_true, decide_eq_true_eq, Bool.or_eq_true] at hw
  obtain ⟨⟨h0, h1⟩, h2⟩ := hw
  refine ⟨?_, ?_, ?_, ?_⟩
  · simp [bankEntry, entryOfBytes, entryByte]
  · simp only [bankEntry, entryOfBytes, entryPrimary]
    unfold entryByte at *
    omega
  · simp only [bankEntry, entryOfBytes, entryLimit, of16, entryByte]
    rw [BitVec.toNat_append]
    rw [Nat.shiftLeft_eq, Nat.mul_comm]
    have := (memRead (bankOf s.route id).mem (4 * d.toNat + 3)).isLt
    rw [show (2:Nat)^8 = 256 by rfl]
    rw [show 256 = 2^8 by rfl, Nat.two_pow_add_eq_or_of_lt (by simpa using this)]
  · rfl

theorem routeRecord_of_chooses (s : State) (r : ItemRecord) (len) (k) (h : Chooses len r s k) : routeRecord s r len = .outlet k := by
  rcases h with ⟨h1, h2⟩ | ⟨id, d, ⟨⟨h1, h2, h3, h4, h5, h6⟩, h7, h8⟩, hc⟩
  · simp [routeRecord, h1, h2]
  · obtain ⟨f1, f2, f3, f4⟩ := bankEntry_of_wellFormed s id d h6
    simp only [routeRecord, h1, h2, Bool.false_eq_true, if_false, committedBank_of_findsBank id r s h3, h4, Option.getD_some]
    unfold routeByEntry
    rw [if_neg (by simp [Config.bankEntries]; omega)]
    simp only [f1.mpr h7, Bool.not_true, Bool.false_eq_true, if_false]
    rw [if_neg (by
      rintro ⟨a, b⟩
      rw [f3] at b
      rcases h8 with h8 | h8
      · apply a; apply BitVec.eq_of_toNat_eq; rw [f3, h8]; rfl
      · omega)]
    unfold chooseOutlet
    rcases hc with ⟨a, b⟩ | ⟨a, b, c⟩
    · have : (bankEntry (bankOf s.route id).mem d.toNat).primary = k := Fin.ext (by rw [f2, b])
      rw [this, ← usable_eq, ← b, a]; simp
    · rw [← usable_eq, f2, a]
      have hk : entryAlternate s id d.toNat < 4 := by rw [c]; exact k.isLt
      rw [f4, dif_pos hk]
      simp only [Bool.false_eq_true, if_false]
      rw [← usable_eq]
      simp only [b, if_true, RouteChoice.outlet.injEq]
      exact Fin.ext c

theorem routeRecord_of_passes (s : State) (r : ItemRecord) (len) (w) (h : Passes len r s w) : routeRecord s r len = .through w := by
  have ill : ∀ (id : BankId) (d : BitVec 12), ReadsEntry id d r s →
      routeRecord s r len = routeByEntry s id d len ∧ d.toNat < 1024
      ∧ entryWellFormed (entryByte s id d.toNat 0) (entryByte s id d.toNat 1) = true := by
    rintro id d ⟨h1, h2, h3, h4, h5, h6⟩
    refine ⟨?_, h5, h6⟩
    simp only [routeRecord, h1, h2, Bool.false_eq_true, if_false, committedBank_of_findsBank id r s h3, h4, Option.getD_some]
  have noout : ∀ (id : BankId) (d : BitVec 12), Diverts id d len r s →
      usable s (entryPrimary s id d.toNat) = false → usable s (entryAlternate s id d.toNat) = false →
      routeRecord s r len = .through (some (if entryPrimary s id d.toNat < s.config.outletsPresent.val then .laneFull else .noOutlet)) := by
    rintro id d ⟨h1, h7, h8⟩ ha hb
    obtain ⟨e1, e2, e3⟩ := ill id d h1
    obtain ⟨f1, f2, f3, f4⟩ := bankEntry_of_wellFormed s id d e3
    rw [e1]
    unfold routeByEntry
    rw [if_neg (by simp [Config.bankEntries]; omega)]
    simp only [f1.mpr h7, Bool.not_true, Bool.false_eq_true, if_false]
    rw [if_neg (by
      rintro ⟨a, b⟩
      rw [f3] at b
      rcases h8 with h8 | h8
      · apply a; apply BitVec.eq_of_toNat_eq; rw [f3, h8]; rfl
      · omega)]
    unfold chooseOutlet
    rw [← usable_eq, f2, ha]
    have hp : outletPresent s.config (bankEntry (bankOf s.route id).mem d.toNat).primary =
        decide (entryPrimary s id d.toNat < s.config.outletsPresent.val) := by
      simp [outletPresent, f2]
    rw [f4, hp]
    by_cases hk : entryAlternate s id d.toNat < 4
    · rw [dif_pos hk]
      simp only [← usable_eq, hb, Bool.false_eq_true, if_false, decide_eq_true_eq]
    · rw [dif_neg hk]; simp
  unfold Passes at h
  split at h
  · rcases h with ⟨h1, h2⟩ | ⟨h1, h2⟩ | ⟨id, d, h1, h2⟩
    · simp [routeRecord, h1, h2]
    · simp [routeRecord, h1, h2]
    · obtain ⟨e1, e2, e3⟩ := ill id d h1
      obtain ⟨f1, f2, f3, f4⟩ := bankEntry_of_wellFormed s id d e3
      rw [e1]
      unfold routeByEntry
      rw [if_neg (by simp [Config.bankEntries]; omega)]
      have : (bankEntry (bankOf s.route id).mem d.toNat).divert = false := by
        by_contra hh
        have := f1.mp (by simpa using hh)
        rw [h2] at this; simp at this
      simp [this]
  · obtain ⟨h1, h2, h3, h4⟩ := h
    simp [routeRecord, h1, h2, committedBank, h3, h4]
  · obtain ⟨h1, h2, id, d, h3, h4, h5⟩ := h
    simp only [routeRecord, h1, h2, Bool.false_eq_true, if_false, committedBank_of_findsBank id r s h3, h4, Option.getD_some]
    unfold routeByEntry
    rw [if_pos (by simpa [Config.bankEntries] using h5)]
  · obtain ⟨id, d, h1, h2, h3, h4⟩ := h
    obtain ⟨e1, e2, e3⟩ := ill id d h1
    obtain ⟨f1, f2, f3, f4⟩ := bankEntry_of_wellFormed s id d e3
    rw [e1]
    unfold routeByEntry
    rw [if_neg (by simp [Config.bankEntries]; omega)]
    simp only [f1.mpr h2, Bool.not_true, Bool.false_eq_true, if_false]
    rw [if_pos]
    refine ⟨?_, by rw [f3]; omega⟩
    intro hh; apply h3; rw [← f3, hh]; rfl
  · obtain ⟨id, d, h1, h2, h3, h4⟩ := h
    rw [noout id d h1 h2 h3, if_pos h4]
  · obtain ⟨id, d, h1, h2, h3, h4⟩ := h
    rw [noout id d h1 h2 h3, if_neg (by omega)]
  · exact h.elim

/-- A record passed at resolution (R41, R42). -/
theorem passRecord_eq (a : BitVec 6) (p : Pos) (len : BitVec 16) (why : Option Reason) (r : ItemRecord) :
    passRecord a p len why r = passed a p len why r := by
  cases why with
  | none => rfl
  | some w =>
    simp only [passRecord, passed, noted, noteOn, addNote, Config.trailCapacity]
    rfl

theorem windowsMeet_iff (v w : Window) : windowsMeet v w = true ↔ Meets v w := by
  simp only [windowsMeet, Bool.and_eq_true, atOrPast_iff]

theorem confirmMatches_eq (s : State) (k : OutletId) (x : Pos) : confirmMatches s.config k x = confirmCandidate s k x := by
  funext r
  unfold confirmMatches confirmCandidate
  cases r.stage with
  | boundOut p l o w =>
    by_cases h : o = k
    · subst h; rfl
    · simp [h]
  | _ => rfl

theorem exitMatches_eq (s : State) (x : Pos) : exitMatches s.config x = exitCandidate s x := by
  funext r
  unfold exitMatches exitCandidate
  cases r.stage <;> rfl

/-- An accepted edge that waits, taken in TRACKING (R75). -/
theorem exec_edge {e : EyeId} {blocked : Bool} {x : Pos} {s : State} (hw : Waits e blocked x s) :
    exec (edgeCommandOf e blocked) s = .next (trackEdge e blocked x (turned e blocked x s)) := by
  rw [exec_edgeCommandOf, edgeCommand_eq hw]

/-! ## Closes and the events of the last count -/

theorem exitCloseRemoves_eq (s : State) : exitCloseRemoves s.config s.position.pos = exitEnds s := by
  funext r
  unfold exitCloseRemoves exitEnds
  cases r.stage <;> rfl

/-- The two readings of the confirm close's turn agree (R53, R59, R60). -/
theorem confirmCloseNow_eq (s : State) : confirmCloseNow s = confirmEnds s := by
  funext r
  unfold confirmCloseNow firstExitClose
  rw [exitCloseRemoves_eq]
  unfold confirmCloseRemoves confirmEnds
  rcases r with ⟨t, de, pl, fl, ho, tr, ar, st⟩
  cases st with
  | boundOut p l o w =>
    simp only [exitEnds]
    by_cases h1 : plus p (s.config.outlets.get o).confirmMax = s.position.pos
    · by_cases h2 : plus p s.config.exitMax = s.position.pos
      · simp [confirmWindow, exitWindow, past, h1, h2, atOrPast]
      · simp [confirmWindow, exitWindow, past, h1, h2, atOrPast]
    · simp [confirmWindow, exitWindow, past, h1]
  | _ => rfl

theorem waits_of_edgeWaits {s : State} {e : EyeId} (h : edgeWaits s e = true) :
    ∃ b x, Waits e b x s := by
  unfold edgeWaits edgeDue at h
  cases hc : (eyeOf s.sensor e).cand with
  | none => simp [hc] at h
  | some c =>
    refine ⟨c.blocked, c.stamp, ?_⟩
    have : c.ripe = true := by
      by_contra hh
      simp [hc, hh] at h
    simp [Waits, hc, this]

/-- The accepted edge that waits at an eye is the one taken. -/
theorem takeWaitingEdge_eq {e : EyeId} {b : Bool} {x : Pos} {s : State} (h : Waits e b x s) : takeWaitingEdge e s = takeEdge e b x s := by
  unfold Waits at h
  unfold takeWaitingEdge edgeDue
  cases hc : (eyeOf s.sensor e).cand with
  | none => simp [hc] at h
  | some c =>
    simp [hc] at h
    obtain ⟨rfl, rfl, h3⟩ := h
    cases hb : c.blocked <;> simp [h3, hb]

/-- The command of an event of the last count takes that event (notes/assumptions/4.md). -/
theorem exec_dueCommand {s : State} {d : Due} (h : nextDue s = some d) : exec (dueCommand s d) s = .next (takeDue d s) := by
  unfold nextDue at h
  split at h
  · rename_i e he
    cases h
    obtain ⟨b, x, hw⟩ := waits_of_edgeWaits (by simpa using List.find?_some he)
    have : dueCommand s (.edge e) = edgeCommandOf e b := by
      unfold Waits at hw
      cases hc : (eyeOf s.sensor e).cand with
      | none => simp [hc] at hw
      | some c => simp [hc] at hw; simp [dueCommand, hc, hw.1]
    rw [this, exec_edgeCommandOf, edgeCommand_eq hw]
    simp only [takeDue, takeWaitingEdge_eq hw]
    simp only [takeEdge, accepted_eq]
  · split at h
    · rename_i r hr; cases h; simp [dueCommand, exec, execApproachWindowClose, hr, takeDue]
    · split at h
      · rename_i r hr; cases h; simp [dueCommand, exec, execConfirmWindowClose, hr, takeDue]
      · split at h
        · rename_i r hr; cases h; simp [dueCommand, exec, execExitWindowClose, hr, takeDue]
        · split at h
          · rename_i k hk; cases h
            have := List.find?_some hk
            simp [dueCommand, exec, execFiringWindowEnd, this, takeDue]
          · split at h
            · rename_i h1; cases h; simp [dueCommand, exec, execBlockedLimitReached, h1, takeDue]
            · split at h
              · rename_i h1; cases h; simp [dueCommand, exec, execBlockedLimitReached, h1, takeDue]
              · split at h
                · rename_i h1; cases h; simp [dueCommand, exec, execReversal, h1, takeDue]
                · cases h

end Sys2Proof.Machine
end

