-- ==== Sys2Proof/WellFormed.lean ====
section
/-! DEFINITION. WellFormed.lean: what makes a command well formed: a frame's payload is at most 80 bytes (Table 11-1), a frame's kind
travels in the direction of its command (R144), an unknown request's code is not one of the fourteen (R165). A command that is not
well formed still has its meaning (the receive errors of chapter 8, or the request it spells). -/

namespace Sys2Proof

/-- A payload that a frame can carry. -/
def payloadOk (n : Nat) : Bool := decide (n ≤ Config.maxPayload)

/-- The codes of Table 11-4. -/
def requestCodes : List Byte := [0x01, 0x02, 0x03, 0x10, 0x11, 0x12, 0x13, 0x20, 0x21, 0x22, 0x23, 0x30, 0x31, 0x40]

/-- A REQUEST of `n` bytes after its number and code. -/
def requestOk (n : Nat) : Bool := payloadOk (n + 2)

/-- A READ_OBJECT of `n` bytes after its object space. -/
def objectOk (n : Nat) : Bool := payloadOk (n + 3)

/-- The command is well formed. -/
def Instr.wf : Instr → Bool
  | .powerOn => true
  | .resetAsserted => true
  | .resetReleased => true
  | .forwardCount => true
  | .backwardCount => true
  | .reversal => true
  | .blockedLimitReached _ => true
  | .eyePinChange _ _ => true
  | .entryLeadingEdge => true
  | .entryTrailingEdge => true
  | .confirmLeadingEdge _ => true
  | .confirmTrailingEdge _ => true
  | .exitLeadingEdge => true
  | .exitTrailingEdge => true
  | .approachWindowClose => true
  | .confirmWindowClose => true
  | .exitWindowClose => true
  | .firingWindowEnd _ => true
  | .stall => true
  | .laneFullChange _ _ => true
  | .testFireEnd _ => true
  | .bankCheckCompletion => true
  | .ackTimeout => true
  | .noticeChoice => true
  | .portUp _ => true
  | .portDown _ _ => true
  | .receiveError _ _ => true
  | .item _ payload => payloadOk payload.length
  | .enumerate _ payload => payloadOk payload.length
  | .downstreamRelay f => payloadOk f.payload.length && !f.kind.msb
  | .upstreamRelay f => payloadOk f.payload.length && f.kind.msb
  | .uTransmitGrant => true
  | .dTransmitGrant => true
  | .sendingComplete _ => true
  | .unknownRequest _ _ code args => requestOk args.length && !requestCodes.contains code
  | .ident _ _ args => objectOk args.length
  | .config _ _ args => objectOk args.length
  | .bankStatus _ _ args => objectOk args.length
  | .readRoute _ _ _ args => objectOk args.length
  | .queueSnapshot _ _ args => objectOk args.length
  | .schedules _ _ args => objectOk args.length
  | .portStatus _ _ args => objectOk args.length
  | .noticeStatus _ _ args => objectOk args.length
  | .sensorStatus _ _ args => objectOk args.length
  | .writeConfig _ _ args => requestOk args.length
  | .readCounters _ _ args => requestOk args.length
  | .openPlan _ _ args => requestOk args.length
  | .writeSegment _ _ args => requestOk args.length
  | .commitPlan _ _ args => requestOk args.length
  | .dropPlan _ _ args => requestOk args.length
  | .startTracking _ _ args => requestOk args.length
  | .stopTracking _ _ args => requestOk args.length
  | .recover _ _ args => requestOk args.length
  | .restart _ _ args => requestOk args.length
  | .ackNotice _ _ args => requestOk args.length
  | .setNoticeMask _ _ args => requestOk args.length
  | .fireTest _ _ args => requestOk args.length
  | .symbolReceived _ _ => true
  | .encoderDoubleChange => true

end Sys2Proof
end

