-- ==== Sys2Proof/Tests/Slice0.lean ====
section
/-! SUPPORT. Tests/Slice0.lean: the smoke test of WellFormed, one-step tests whose expected values are worked out by hand from the rules
named, and for each obligation with hypotheses a witness that meets them, clause by clause, at the ends of their ranges. -/

namespace Sys2Proof.Tests

open Sys2Proof.Machine Sys2Proof.Safety

/-! ## States -/

/-- An UP port with its framer in BETWEEN. -/
def upLink : LinkPort := ⟨true, 32, 0, .between, ⟨false, false, false, false, false⟩⟩

/-- A DOWN port that has aligned `n` symbols. -/
def downLink (n : Nat) : LinkPort := ⟨false, n, 0, .discard, ⟨false, false, false, false, false⟩⟩

/-- A consistent configuration with two outlets: approach [5, 30), exit [60, 100), firing 15, confirm [25, 45) past the entry position,
blocked limit 40, reversal tolerance 3, stall time 5 ms. -/
def config2 : StationConfig :=
  { StationConfig.powerOn with
    outletsPresent := 2
    approachMin := 5
    approachMax := 30
    exitMin := 60
    exitMax := 100
    blockedLimit := 40
    reversalTolerance := 3
    stallTime := 5
    outlets := PerOutlet.all ⟨15, 25, 45, 2⟩ }

/-- Station 7 in mode `m`, both ports UP. -/
def station (m : Mode) : State :=
  { State.reset with
    control := ⟨m, .none, decide (m = .trackLost)⟩
    links := ⟨upLink, upLink⟩
    relay := { RelayUnit.cold with address := if m = .transparent then 0 else 7 }
    config := config2 }

/-- A record of tag 0x1234, destination 5 and plan 9, announced at position 100. -/
def someRecord (st : Stage) : ItemRecord :=
  ⟨0x1234, some 5, 9, ⟨false, false, false, false⟩, 1, [], 100, st⟩

/-- The same record with the STRAY flag and no destination. -/
def strayOne (st : Stage) : ItemRecord := ⟨0, none, 0, ⟨true, false, false, false⟩, 0, [], 100, st⟩

/-- The station in TRACKING at belt position `x`, reached by a forward count, with the records `q`. -/
def tracking (x : Pos) (q : List ItemRecord) : State :=
  { station .tracking with
    tracking := q
    position := ⟨false, false, x, x, .forward, if q = [] then none else some ⟨0, false⟩⟩ }

/-- The state with an accepted edge waiting at an eye. -/
def withEdge (e : EyeId) (blocked : Bool) (x : Pos) (s : State) : State :=
  { s with sensor := setEye s.sensor e ⟨true, !blocked, some ⟨blocked, x, 2, true⟩⟩ }

/-- The state with the framer of a port set. -/
def withFramer (p : Port) (f : Framer) (run : Nat) (s : State) : State := framed p f run s

/-- The state with bank A COMMITTED under plan 9 and the entry of destination 5 given by its four bytes. -/
def withEntry (b0 b1 b2 b3 : Byte) (s : State) : State :=
  { s with route := { s.route with a := ⟨.committed 9, memWriteBytes [] 20 [b0, b1, b2, b3], Vector.replicate 64 .blank⟩ } }

/-- The state with the lane of outlet `k` full. -/
def withFullLane (k : OutletId) (s : State) : State :=
  { s with sensor := { s.sensor with lanes := s.sensor.lanes.set k ⟨true, true⟩ } }

/-- The state with the schedule of outlet `k` set. -/
def withSchedule (k : OutletId) (ws : List Window) (s : State) : State :=
  { s with outlets := s.outlets.set k { s.outlets.get k with schedule := ws } }

/-- A frame of no account. -/
def someFrame : Frame := ⟨0x81, 9, [1, 2]⟩

/-- The state reached by a command. -/
def after (c : Instr) (s : State) : State :=
  match exec c s with
  | .next t => t
  | .fault _ => s
  | .refused _ => s

/-! ## WellFormed -/

theorem test_wf_accepts :
    [Instr.powerOn, .item 0 [1, 2], .downstreamRelay ⟨0x04, 1, []⟩, .upstreamRelay someFrame, .unknownRequest 7 1 0x50 [],
      .ident 7 1 [0, 0, 1], .openPlan 7 1 [0, 9]].all Instr.wf = true := by decide

theorem test_wf_refuses_long_frame :
    [Instr.item 0 (List.replicate 81 0), .enumerate 5 (List.replicate 81 0), .downstreamRelay ⟨0x04, 1, List.replicate 81 0⟩,
      .upstreamRelay ⟨0x84, 1, List.replicate 81 0⟩].any Instr.wf = false := by decide

theorem test_wf_refuses_wrong_class : [Instr.downstreamRelay ⟨0x84, 1, []⟩, .upstreamRelay ⟨0x04, 1, []⟩].any Instr.wf = false := by
  decide

theorem test_wf_refuses_known_code : (Instr.unknownRequest 7 1 0x20 []).wf = false := by decide

theorem test_wf_refuses_long_object :
    [Instr.ident 7 1 (List.replicate 78 0), .config 7 1 (List.replicate 78 0), .bankStatus 7 1 (List.replicate 78 0),
      .readRoute .a 7 1 (List.replicate 78 0), .queueSnapshot 7 1 (List.replicate 78 0), .schedules 7 1 (List.replicate 78 0),
      .portStatus 7 1 (List.replicate 78 0), .noticeStatus 7 1 (List.replicate 78 0),
      .sensorStatus 7 1 (List.replicate 78 0)].any Instr.wf = false := by decide

theorem test_wf_refuses_long_request :
    [Instr.unknownRequest 7 1 0x50 (List.replicate 79 0), .writeConfig 7 1 (List.replicate 79 0), .readCounters 7 1 (List.replicate 79 0),
      .openPlan 7 1 (List.replicate 79 0), .writeSegment 7 1 (List.replicate 79 0), .commitPlan 7 1 (List.replicate 79 0),
      .dropPlan 7 1 (List.replicate 79 0), .startTracking 7 1 (List.replicate 79 0), .stopTracking 7 1 (List.replicate 79 0),
      .recover 7 1 (List.replicate 79 0), .restart 7 1 (List.replicate 79 0), .ackNotice 7 1 (List.replicate 79 0),
      .setNoticeMask 7 1 (List.replicate 79 0), .fireTest 7 1 (List.replicate 79 0)].any Instr.wf = false := by decide

/-! ## One step at a time -/

/-- No row of the table has bits, so no word spells a command. -/
theorem test_no_word_spells_a_command : decodeTableWord 8 0x01 = none := by decide

/-- R141: the CRC-16 of the ASCII digits 1 to 9 under this polynomial and initial value is 0x29B1, its published check value. -/
theorem test_crc16_of_the_nine_digits : crc16 [0x31, 0x32, 0x33, 0x34, 0x35, 0x36, 0x37, 0x38, 0x39] = 0x29B1 := by decide +kernel

/-- The banks' memory has its canonical form after reset (R86). -/
theorem test_reset_memory : Memory.wf State.reset.route.a.mem = true ∧ Memory.wf State.reset.route.b.mem = true := by decide

/-- R66: (0, 0) to (1, 0) is forward. -/
theorem test_forward_count : (after .forwardCount State.reset).position.pos = 1
    ∧ (after .forwardCount State.reset).position.encA = true ∧ (after .forwardCount State.reset).position.encB = false := by decide

/-- R67: the position wraps below 0. -/
theorem test_backward_count_wraps : (after .backwardCount State.reset).position.pos = 0xFFFFFFFF := by decide

/-- R152: address 5 taken, the regenerated ENUMERATE carries 6. -/
theorem test_enumerate : (after (.enumerate 5 []) (station .transparent)).relay.address = 5
    ∧ (after (.enumerate 5 []) (station .transparent)).relay.downQueue = [⟨0x03, 6, []⟩]
    ∧ (after (.enumerate 5 []) (station .transparent)).control.mode = .ready := by decide

/-- R74: a blocked level held for the filter length of 2 counts is an accepted edge stamped with the position at which it began. -/
theorem test_filter :
    edgeDue (after .forwardCount (after .forwardCount (after (.eyePinChange .entry false) (station .tracking)))) .entry true = some 0
    ∧ edgeDue (after .forwardCount (after (.eyePinChange .entry false) (station .tracking))) .entry true = none := by decide

/-- R28, R38: entered at 110, trailing edge at 120: L is 10, fired from 125 for 10 + 2 counts; bank entry DIVERT, primary 0. -/
theorem test_resolution :
    ((after .entryTrailingEdge
      (withEntry 1 0x0F 0 0 (withEdge .entry false 120 (tracking 121 [someRecord (.onEye 110)])))).outlets.get 0).schedule
      = [⟨125, 137⟩] := by decide

/-- R34, R35: 17 counts exceed a max_length of 1 unit of 16 counts. -/
theorem test_overlength :
    (after .entryTrailingEdge
      (withEntry 1 0x0F 0 1 (withEdge .entry false 127 (tracking 128 [someRecord (.onEye 110)])))).tracking
      = [{ someRecord (.boundThrough 110 17 (some .overlength)) with trail := [⟨7, .overlength⟩] }] := by decide

/-- R54: a confirm edge at 135, 25 counts past the entry position, is the first that credits the record. -/
theorem test_confirm :
    (after (.confirmLeadingEdge 0)
      (withEdge (.confirm 0) true 135 (tracking 136 [someRecord (.boundOut 110 10 0 ⟨125, 137⟩)]))).tracking = [] := by decide

/-- Table 11-9: the DIVERTED tally of that record. -/
theorem test_diverted_tally :
    (after (.confirmLeadingEdge 0)
      (withEdge (.confirm 0) true 135 (tracking 136 [someRecord (.boundOut 110 10 0 ⟨125, 137⟩)]))).report.tallyQueue
      = [⟨0x82, 7, [0, 1, 0x12, 0x34, 0x80, 0x05, 0, 0, 0, 0, 0, 135, 0, 10, 1]⟩] := by decide

/-- R172, Table 11-6: IDENT. -/
theorem test_ident :
    (after (.ident 7 3 [0, 0, 1]) (station .ready)).request.slot
      = some ⟨0x81, 7, [3, 0x01, 0, 0, 0, 0, 1, 0x03, 0x12, 1, 32, 8, 6, 16, 8, 8, 8, 2, 4, 0, 64, 4, 7, 1, 0]⟩ := by decide

/-- R105: with outlets_present at 0 the first unmet condition is 1, at no outlet. -/
theorem test_bad_config :
    (after (.startTracking 7 3 []) { station .ready with config := StationConfig.powerOn }).request.slot
      = some ⟨0x81, 7, [3, 0x20, 0x06, 1, 0xFF]⟩ := by decide

/-- R137: the fourth violation in a row takes the port DOWN. -/
theorem test_fourth_violation :
    ((after (.symbolReceived .u .violation) (withFramer .u .discard 3 (station .ready))).links.get .u).up = false
    ∧ ((after (.symbolReceived .u .violation) (withFramer .u .discard 2 (station .ready))).links.get .u).up = true := by decide

/-! ## Witnesses: the hypotheses of each obligation are met -/

/-- The state with the notice channel set. -/
def withChannel (c : Channel) (s : State) : State := { s with report := { s.report with channel := c } }

/-- A notice of STALL. -/
def someNotice : Notice := ⟨4, .stall, 1, ⟨0x83, 7, [4, 9, 1, 2, 1, 0, 0, 0, 0, 0]⟩⟩

/-- An OUTSTANDING channel with its retry count and its timer. -/
def outstanding (retry : BitVec 3) (timer : Option AckTimer) : Channel := ⟨.outstanding, 5, some someNotice, retry, timer, none, false⟩

/-- The state with the test fire of outlet 0 running for `n` more milliseconds. -/
def withTestFire (n : Nat) (s : State) : State :=
  { s with outlets := s.outlets.set 0 ⟨[], true, some n⟩ }

/-- The state with the stall watch of a held record. -/
def withWatch (n : Nat) (reported : Bool) (s : State) : State :=
  { s with position := { s.position with watch := some ⟨n, reported⟩ } }

/-- The state with source 1 pending and unmasked, and source 3 too. -/
def withPending (s : State) : State :=
  { s with report := { s.report with
      sources := (s.report.sources.set 1 ⟨true, 255, false⟩).set 3 ⟨true, 1, false⟩ } }

/-- The state with a reply waiting in the slot. -/
def withReply (s : State) : State := { s with request := ⟨some someFrame, none⟩ }

/-- The state with a bank check of bank A in flight under number 4. -/
def withCheck (s : State) : State :=
  { s with route := { s.route with
      a := ⟨.committing 9, [], Vector.replicate 64 .written⟩
      check := some ⟨.a, 0, 4⟩ } }

/-- The state with bank A in a state. -/
def withBankA (b : BankState) (s : State) : State :=
  { s with route := { s.route with a := ⟨b, [], Vector.replicate 64 .blank⟩ } }

/-- Eight windows far ahead of position 200. -/
def eightWindows : List Window := (List.range 8).map (fun i => ⟨BitVec.ofNat 32 (1000 + 20 * i), BitVec.ofNat 32 (1010 + 20 * i)⟩)

theorem test_meets_StepTakesFrontCommand : ({ State.reset with pending := [.stall, .powerOn] } : State).pending = .stall :: [.powerOn] := by
  decide

theorem test_meets_EmptyQueueTicks :
    (withWatch 4 false (tracking 0 [someRecord .expected])).pending = []
    ∧ (withWatch 4 false (tracking 0 [someRecord .expected])).position.watch = some ⟨4, false⟩
    ∧ 4 + 1 = (tracking 0 []).config.stallTime.toNat
    ∧ (withWatch 3 false (tracking 0 [someRecord .expected])).position.watch = some ⟨3, false⟩
    ∧ 3 + 1 ≠ (tracking 0 []).config.stallTime.toNat
    ∧ (withWatch 4 true (tracking 0 [someRecord .expected])).position.watch = some ⟨4, true⟩
    ∧ (station .ready).position.watch = none
    ∧ ((withTestFire 1 (station .ready)).outlets.get 0).testFire = some 1
    ∧ ((withTestFire 1000 (station .ready)).outlets.get 0).testFire = some 1000
    ∧ ((withTestFire 1 (station .ready)).outlets.get 1).testFire = none
    ∧ (withChannel (outstanding 3 (some ⟨20, 18⟩)) (station .ready)).report.channel.timer = some ⟨20, 18⟩ ∧ 18 + 1 < 20
    ∧ (withChannel (outstanding 2 (some ⟨20, 19⟩)) (station .ready)).report.channel.timer = some ⟨20, 19⟩ ∧ 20 ≤ 19 + 1
    ∧ (withChannel (outstanding 2 (some ⟨20, 19⟩)) (station .ready)).report.channel.retry.toNat < (station .ready).config.noticeRetries.toNat
    ∧ (station .ready).config.noticeRetries.toNat ≤ (withChannel (outstanding 3 (some ⟨20, 19⟩)) (station .ready)).report.channel.retry.toNat
    ∧ (station .ready).report.channel.timer = none := by decide

/-- A state that is not the one after reset, with a record, a schedule, a COMMITTED bank and an outstanding notice, and a step from it. -/
def busy : State :=
  withChannel (outstanding 2 (some ⟨20, 19⟩))
    { withEntry 1 0x0F 0 1 (withSchedule 0 [⟨225, 237⟩] (tracking 200 [someRecord (.boundOut 210 10 0 ⟨225, 237⟩)])) with
      pending := [.forwardCount] }

theorem test_meets_steps : ∃ t, step busy = .next t := ⟨after .forwardCount { busy with pending := [] }, rfl⟩

theorem test_meets_StepKeepsCapacities : WithinCapacity busy ∧ ∃ t, step busy = .next t :=
  ⟨⟨by decide, by decide, by decide, by decide, by decide, by decide, by decide⟩, test_meets_steps⟩

theorem test_meets_StepKeepsModeDiscipline : ModeDiscipline busy ∧ ∃ t, step busy = .next t := by
  refine ⟨⟨by decide, by decide, by decide, ?_, by decide, by decide, by decide, by decide⟩, test_meets_steps⟩
  intro k n h
  fin_cases k <;> cases h

/-- The byte of bank A of `busy` at an address. -/
theorem busy_reads (a : Nat) (h : a ≠ 20) (h' : a ≠ 21) (h'' : a ≠ 23) : memRead busy.route.a.mem a = 0 := by
  have e : busy.route.a.mem = [(20, 1), (21, 0x0F), (23, 1)] := by decide
  simp only [e, memRead]
  rw [if_neg (by omega), if_neg (by omega), if_neg (by omega)]

theorem clear_sound : BankSound ⟨.empty, [], Vector.replicate 64 .blank⟩ :=
  ⟨by decide, fun _ _ => rfl, fun _ _ => by simp only [memRead]; decide, fun _ _ _ _ => rfl, fun _ => rfl,
    fun n h => by rcases h with h | h | h <;> cases h⟩

theorem test_meets_StepKeepsBanksSound :
    BanksSound { busy with route := { busy.route with a := { busy.route.a with segs := busy.route.a.segs.set 0 .written } } }
    ∧ ∃ t, step { busy with route := { busy.route with a := { busy.route.a with segs := busy.route.a.segs.set 0 .written } } }
        = .next t := by
  refine ⟨⟨⟨by decide, ?_, ?_, ?_, by decide, ?_⟩, clear_sound, ?_, ?_, ?_⟩, ⟨_, rfl⟩⟩
  · intro a h
    exact busy_reads a (by omega) (by omega) (by omega)
  · intro i _
    by_cases h : i = 5
    · subst h; decide
    · rw [show memRead _ (4 * i) = 0 from busy_reads (4 * i) (by omega) (by omega) (by omega),
        show memRead _ (4 * i + 1) = 0 from busy_reads (4 * i + 1) (by omega) (by omega) (by omega)]
      decide
  · intro i h j hj
    have hi : i.val ≠ 0 := by
      intro h0
      have : i = 0 := Fin.ext h0
      subst this
      exact absurd h (by decide)
    exact busy_reads _ (by omega) (by omega) (by omega)
  · intro n h
    rcases h with h | h | h
    · exact absurd h (by simp [busy, withChannel, withEntry])
    · exact absurd h (by simp [busy, withChannel, withEntry])
    · rintro rfl
      exact absurd h (by simp [busy, withChannel, withEntry])
  · exact ⟨fun ⟨n, h⟩ => absurd h (by simp [busy, withChannel, withEntry]), fun ⟨e, m, h⟩ => absurd h (by
      simp [busy, withChannel, withEntry, withSchedule, tracking, station, State.reset])⟩
  · exact ⟨fun ⟨n, h⟩ => absurd h (by
      simp [busy, withChannel, withEntry, withSchedule, tracking, station, State.reset, Bank.cleared]), fun ⟨e, m, h⟩ => absurd h (by
      simp [busy, withChannel, withEntry, withSchedule, tracking, station, State.reset])⟩
  · intro n _
    simp [busy, withChannel, withEntry, withSchedule, tracking, station, State.reset, Bank.cleared, bankPlan]

theorem test_meets_StepKeepsQueueOrder :
    QueueOrdered { tracking 200 [someRecord (.boundOut 210 10 0 ⟨225, 237⟩), someRecord .expected] with pending := [.stall] }
    ∧ ∃ t, step { tracking 200 [someRecord (.boundOut 210 10 0 ⟨225, 237⟩), someRecord .expected] with pending := [.stall] }
        = .next t := by
  refine ⟨⟨?_, by decide, ?_, by decide, by decide⟩, ⟨_, rfl⟩⟩
  · intro pre r post h hr x hx
    match pre, h with
    | [], h =>
      obtain ⟨rfl, rfl⟩ := List.cons.inj h
      simp only [List.mem_singleton] at hx
      subst hx
      rfl
    | [_], h =>
      obtain ⟨_, h2⟩ := List.cons.inj h
      obtain ⟨_, rfl⟩ := List.cons.inj h2
      cases hx
    | _ :: _ :: _ :: _, h => simp [tracking] at h
    | [_, _], h => simp [tracking] at h
  · intro e c h
    cases e with
    | entry => cases h
    | exit => cases h
    | confirm k => fin_cases k <;> cases h

theorem test_meets_StepKeepsChannelSound :
    ChannelSound (withChannel (outstanding 2 (some ⟨20, 19⟩)) { station .ready with pending := [.ackTimeout] })
    ∧ ∃ t, step (withChannel (outstanding 2 (some ⟨20, 19⟩)) { station .ready with pending := [.ackTimeout] }) = .next t := by
  refine ⟨⟨by decide, by decide, by decide, by decide, by decide, by decide, by decide, ?_, fun h => (by cases h), ?_, ?_, by decide,
    by decide⟩,
    ⟨_, rfl⟩⟩
  · intro f h; cases h
  · intro a h; cases h; decide
  · intro n h; cases h; decide

theorem test_meets_StepKeepsLinksSound :
    LinksSound { withFramer .u (.inFrame [0x01, 0x00, 80]) 3 (station .ready) with pending := [.sendingComplete .u] }
    ∧ ∃ t, step { withFramer .u (.inFrame [0x01, 0x00, 80]) 3 (station .ready) with pending := [.sendingComplete .u] } = .next t := by
  refine ⟨⟨⟨by decide, fun _ => ⟨by decide, ?_⟩⟩, ⟨by decide, fun _ => ⟨by decide, ?_⟩⟩, by decide, by decide⟩, ⟨_, rfl⟩⟩
  · intro bytes h; cases h; exact ⟨by decide, by decide⟩
  · intro bytes h; cases h

theorem test_meets_ResetsLeaveColdState :
    (station .tracking).resetHeld = false ∧ (after .resetAsserted (station .tracking)).resetHeld = true
    ∧ after .resetAsserted (station .tracking) = coldState true (station .tracking)
    ∧ (after (.eyePinChange .exit false) (after .resetAsserted (station .tracking))).resetHeld = true := by decide

theorem test_meets_EncoderDirectionTable :
    (station .ready).resetHeld = false
    ∧ (station .ready).position.encA = false ∧ (station .ready).position.encB = false
    ∧ (after .forwardCount (station .ready)).position.encA = true ∧ (after .forwardCount (station .ready)).position.encB = false
    ∧ (after .encoderDoubleChange (station .ready)).position.encA = true
    ∧ (after .encoderDoubleChange (station .ready)).position.encB = true
    ∧ (after .backwardCount (station .ready)).position.encA = false ∧ (after .backwardCount (station .ready)).position.encB = true := by
  decide

theorem test_meets_CountMovesBelt :
    (tracking 104 [someRecord .expected]).resetHeld = false ∧ nextDue (tracking 104 [someRecord .expected]) = none
    ∧ (tracking 104 [someRecord .expected]).control.mode = .tracking
    ∧ AtOrPast ((tracking 104 [someRecord .expected]).position.pos + 1) (tracking 104 [someRecord .expected]).position.highWater
    ∧ (after .resetAsserted (station .ready)).resetHeld = true := by decide

theorem test_meets_CountTakesWhatIsDue :
    (tracking 130 [someRecord .expected]).resetHeld = false
    ∧ nextDue (tracking 130 [someRecord .expected]) = some (.approachClose (someRecord .expected))
    ∧ nextDue (withEdge .exit true 130 (tracking 130 [someRecord .expected])) = some (.edge .exit)
    ∧ nextDue (tracking 129 [someRecord .expected]) = none := by decide

/-- The belt four counts behind its high-water position after a backward count. -/
def reversed (n : Pos) : State :=
  { tracking 200 [someRecord .expected] with position := ⟨false, false, 200 - n, 200, .backward, some ⟨0, false⟩⟩ }

theorem test_meets_ReversalTakesStationOut :
    (reversed 4).control.mode = .tracking ∧ (reversed 4).position.last = .backward
    ∧ (reversed 4).config.reversalTolerance.toNat < ((reversed 4).position.highWater - (reversed 4).position.pos).toNat
    ∧ ((reversed 3).position.highWater - (reversed 3).position.pos).toNat ≤ (reversed 3).config.reversalTolerance.toNat
    ∧ (station .ready).control.mode ≠ .tracking ∧ (tracking 200 []).position.last ≠ .backward := by decide

/-- The entry and exit eyes blocked since position 160, the belt at `x`. -/
def blockedEyes (x : Pos) : State :=
  { tracking x [] with sensor := { SensorUnit.quiet with
      entry := ⟨false, true, none⟩
      exit := ⟨false, true, none⟩
      entrySince := 160
      exitSince := 160 } }

theorem test_meets_BlockedLimitTakesStationOut :
    (blockedEyes 200).control.mode = .tracking ∧ (blockedEyes 200).position.last = .forward
    ∧ (blockedEyes 200).sensor.entry.blocked = true ∧ (blockedEyes 200).sensor.exit.blocked = true
    ∧ (blockedEyes 200).position.pos = plus (blockedEyes 200).sensor.entrySince (blockedEyes 200).config.blockedLimit
    ∧ (blockedEyes 200).position.pos = plus (blockedEyes 200).sensor.exitSince (blockedEyes 200).config.blockedLimit
    ∧ (blockedEyes 199).position.pos ≠ plus (blockedEyes 199).sensor.entrySince (blockedEyes 199).config.blockedLimit
    ∧ (blockedEyes 199).position.pos ≠ plus (blockedEyes 199).sensor.exitSince (blockedEyes 199).config.blockedLimit
    ∧ (tracking 200 []).sensor.entry.blocked = false ∧ (tracking 200 []).sensor.exit.blocked = false
    ∧ (station .ready).control.mode ≠ .tracking ∧ (reversed 4).position.last ≠ .forward := by decide

theorem test_meets_EyePinChangeOpensCandidate :
    (station .ready).resetHeld = false ∧ (eyeOf (station .ready).sensor (.confirm 3)).pin ≠ false
    ∧ (∀ c, (eyeOf (station .ready).sensor (.confirm 3)).cand = some c → c.ripe = false)
    ∧ (eyeOf (station .ready).sensor .entry).pin = true
    ∧ (withEdge .entry true 120 (tracking 122 [])).resetHeld = false
    ∧ (eyeOf (withEdge .entry true 120 (tracking 122 [])).sensor .entry).pin ≠ false
    ∧ Waits .entry true 120 (withEdge .entry true 120 (tracking 122 []))
    ∧ (after .resetAsserted (station .ready)).resetHeld = true :=
  ⟨by decide, by decide, fun _ h => (by cases h), by decide, by decide, by decide, by decide, by decide⟩

theorem test_meets_LaneFullFollowsPin :
    (station .ready).resetHeld = false ∧ (after .resetAsserted (station .ready)).resetHeld = true := by decide

theorem test_meets_EdgesThatOnlyTurnTheEye :
    Waits .entry true 5 (withEdge .entry true 5 (station .ready)) ∧ (withEdge .entry true 5 (station .ready)).control.mode ≠ .tracking
    ∧ Waits .exit false 5 (withEdge .exit false 5 (tracking 5 [])) ∧ (EyeId.exit ≠ .entry ∧ false = false)
    ∧ Waits .entry false 5 (withEdge .entry false 5 (tracking 5 [someRecord .expected]))
    ∧ (∀ r ∈ (withEdge .entry false 5 (tracking 5 [someRecord .expected])).tracking, isOnEye r = false)
    ∧ Waits (.confirm 2) true 5 (withEdge (.confirm 2) true 5 (tracking 5 []))
    ∧ (withEdge (.confirm 2) true 5 (tracking 5 [])).config.outletsPresent.val ≤ (2 : OutletId).val
    ∧ (∀ x, ¬ Waits .entry true x (station .ready)) :=
  ⟨by decide, by decide, by decide, by decide, by decide, by decide, by decide, by decide, fun _ h => (by cases h)⟩

theorem test_meets_EntryEdgeMatchesOldestRecord :
    (withEdge .entry true 105 (tracking 106 [someRecord .expected])).control.mode = .tracking
    ∧ Waits .entry true 105 (withEdge .entry true 105 (tracking 106 [someRecord .expected]))
    ∧ FirstOf isExpected [] (someRecord .expected) [] (withEdge .entry true 105 (tracking 106 [someRecord .expected]))
    ∧ AtOrPast 105 (plus 100 config2.approachMin) ∧ ¬ AtOrPast 105 (plus 100 config2.approachMax)
    ∧ AtOrPast 129 (plus 100 config2.approachMin) ∧ ¬ AtOrPast 129 (plus 100 config2.approachMax) := by decide

theorem test_meets_EntryEdgeMakesStray :
    Waits .entry true 104 (withEdge .entry true 104 (tracking 105 [someRecord (.boundThrough 50 9 none), someRecord .expected]))
    ∧ (∀ r ∈ [someRecord (.boundThrough 50 9 none)], isExpected r = false)
    ∧ (∀ r ∈ [someRecord .expected].head?, isExpected r = true ∧ ¬ AtOrPast 104 (plus r.arrival config2.approachMin))
    ∧ (tracking 105 (List.replicate 31 (someRecord (.boundThrough 50 9 none)))).tracking.length < 32
    ∧ Waits .entry true 104 (withEdge .entry true 104 (tracking 105 (List.replicate 32 (someRecord (.boundThrough 50 9 none)))))
    ∧ (∀ r ∈ List.replicate 32 (someRecord (.boundThrough 50 9 none)), isExpected r = false)
    ∧ (∀ r ∈ ([] : List ItemRecord).head?, isExpected r = true ∧ ¬ AtOrPast 104 (plus r.arrival config2.approachMin))
    ∧ 32 ≤ (tracking 105 (List.replicate 32 (someRecord (.boundThrough 50 9 none)))).tracking.length :=
  ⟨by decide, by decide, by decide, by decide, by decide, by decide, by decide, by decide⟩

theorem test_meets_EntryEdgeFindsRecordLost :
    Waits .entry true 130 (withEdge .entry true 130 (tracking 129 [someRecord .expected]))
    ∧ FirstOf isExpected [] (someRecord .expected) [] (withEdge .entry true 130 (tracking 129 [someRecord .expected]))
    ∧ AtOrPast 130 (plus 100 config2.approachMin) ∧ AtOrPast 130 (plus 100 config2.approachMax) := by decide

/-- A record on the eye since 110 and its trailing edge stamped `x`. -/
def resolving (x : Pos) (r : ItemRecord) : State := withEdge .entry false x (tracking x [r])

theorem test_meets_ResolutionPassesRecord :
    Resolves 120 110 [] (strayOne (.onEye 110)) [] (resolving 120 (strayOne (.onEye 110)))
    ∧ Passes 10 (strayOne (.onEye 110)) (resolving 120 (strayOne (.onEye 110))) none
    ∧ Passes 10 { someRecord (.onEye 110) with flags := ⟨false, false, true, false⟩ } (resolving 120 (someRecord (.onEye 110))) none
    ∧ Passes 10 (someRecord (.onEye 110)) (withEntry 0 0 0 0 (resolving 120 (someRecord (.onEye 110)))) none
    ∧ Passes 10 (someRecord (.onEye 110)) (resolving 120 (someRecord (.onEye 110))) (some .noPlan)
    ∧ Passes 10 { someRecord (.onEye 110) with dest := some 1024 } (withEntry 0 0 0 0 (resolving 120 (someRecord (.onEye 110))))
        (some .noRoute)
    ∧ measuredAs 110 127 = 17
    ∧ Resolves 127 110 [] (someRecord (.onEye 110)) [] (withEntry 1 0x0F 0 1 (resolving 127 (someRecord (.onEye 110))))
    ∧ Passes 17 (someRecord (.onEye 110)) (withEntry 1 0x0F 0 1 (resolving 127 (someRecord (.onEye 110)))) (some .overlength)
    ∧ Passes 16 (someRecord (.onEye 110)) (withFullLane 0 (withEntry 1 0x0F 0 1 (resolving 126 (someRecord (.onEye 110)))))
        (some .laneFull)
    ∧ Passes 16 (someRecord (.onEye 110)) (withEntry 1 0x2F 0 1 (resolving 126 (someRecord (.onEye 110)))) (some .noOutlet) := by
  refine ⟨by decide, Or.inl (by decide), Or.inr (Or.inl (by decide)), Or.inr (Or.inr ⟨.a, 5, by decide, by decide⟩), ?_,
    ⟨by decide, by decide, .a, 1024, by decide, by decide, by decide⟩, by decide, by decide,
    ⟨.a, 5, by decide, by decide, by decide, by decide⟩, ⟨.a, 5, by decide, by decide, by decide, by decide⟩,
    ⟨.a, 5, by decide, by decide, by decide, by decide⟩⟩
  exact ⟨by decide, by decide, by decide, by decide⟩

theorem test_meets_ResolutionLate :
    Resolves 125 110 [] (someRecord (.onEye 110)) [] (withEntry 1 0x20 0 0 (resolving 125 (someRecord (.onEye 110))))
    ∧ Chooses (measuredAs 110 125) (someRecord (.onEye 110)) (withEntry 1 0x20 0 0 (resolving 125 (someRecord (.onEye 110)))) 0
    ∧ Late 125 (firingWindowOf (withEntry 1 0x20 0 0 (resolving 125 (someRecord (.onEye 110)))) 110 (measuredAs 110 125) 0)
        (withEntry 1 0x20 0 0 (resolving 125 (someRecord (.onEye 110)))) := by
  refine ⟨by decide, Or.inr ⟨.a, 5, by decide, Or.inr (by decide)⟩, by decide⟩

/-- The record that resolves at 124, one count before its window opens, with the schedule `ws` of outlet 0. -/
def offering (ws : List Window) : State := withSchedule 0 ws (withEntry 1 0x0F 0 0 (resolving 124 (someRecord (.onEye 110))))

theorem test_meets_ScheduleRefusesNinthWindow :
    Resolves 124 110 [] (someRecord (.onEye 110)) [] (offering eightWindows)
    ∧ Chooses (measuredAs 110 124) (someRecord (.onEye 110)) (offering eightWindows) 0
    ∧ ¬ Late 124 (firingWindowOf (offering eightWindows) 110 (measuredAs 110 124) 0) (offering eightWindows)
    ∧ (∀ w ∈ ((offering eightWindows).outlets.get 0).schedule,
        ¬ Meets (firingWindowOf (offering eightWindows) 110 (measuredAs 110 124) 0) w)
    ∧ 8 ≤ ((offering eightWindows).outlets.get 0).schedule.length := by
  refine ⟨by decide, Or.inr ⟨.a, 5, by decide, Or.inl (by decide)⟩, by decide, by decide, by decide⟩

/-- The windows around an offer of [125, 141): one before it, one that touches its end, one after it. -/
theorem test_meets_ResolutionBindsOutlet :
    Resolves 124 110 [] (someRecord (.onEye 110)) [] (offering [⟨122, 124⟩, ⟨141, 150⟩, ⟨160, 170⟩])
    ∧ Chooses (measuredAs 110 124) (someRecord (.onEye 110)) (offering [⟨122, 124⟩, ⟨141, 150⟩, ⟨160, 170⟩]) 0
    ∧ firingWindowOf (offering [⟨122, 124⟩, ⟨141, 150⟩, ⟨160, 170⟩]) 110 (measuredAs 110 124) 0 = ⟨125, 141⟩
    ∧ ¬ Late 124 ⟨125, 141⟩ (offering [⟨122, 124⟩, ⟨141, 150⟩, ⟨160, 170⟩])
    ∧ ((offering [⟨122, 124⟩, ⟨141, 150⟩, ⟨160, 170⟩]).outlets.get 0).schedule = [⟨122, 124⟩] ++ [⟨141, 150⟩] ++ [⟨160, 170⟩]
    ∧ (∀ w ∈ [(⟨141, 150⟩ : Window)], Meets ⟨125, 141⟩ w)
    ∧ (∀ w ∈ [(⟨122, 124⟩ : Window)] ++ [⟨160, 170⟩], ¬ Meets ⟨125, 141⟩ w)
    ∧ (125 : Pos) ∈ ((⟨125, 141⟩ : Window) :: [⟨141, 150⟩]).map Window.opens
    ∧ (150 : Pos) ∈ ((⟨125, 141⟩ : Window) :: [⟨141, 150⟩]).map Window.closes
    ∧ (∀ w ∈ (⟨125, 141⟩ : Window) :: [⟨141, 150⟩], AtOrPast w.opens 125 ∧ AtOrPast 150 w.closes)
    ∧ (∀ w ∈ [(⟨122, 124⟩ : Window)], ¬ AtOrPast w.opens 125) ∧ (∀ w ∈ [(⟨160, 170⟩ : Window)].head?, AtOrPast w.opens 125)
    ∧ (eightWindows.tail).length < 8 ∧ (∀ w ∈ eightWindows.tail, ¬ Meets ⟨125, 141⟩ w) := by
  refine ⟨by decide, Or.inr ⟨.a, 5, by decide, Or.inl (by decide)⟩, by decide, by decide, by decide, by decide, by decide, by decide,
    by decide, by decide, by decide, by decide, by decide, by decide⟩

/-- A record bound to outlet 0 and entered at 110: confirm window [135, 155), exit window [170, 210). -/
def boundRecord : ItemRecord := someRecord (.boundOut 110 10 0 ⟨125, 137⟩)

/-- A record passed at 110. -/
def passedRecord : ItemRecord := someRecord (.boundThrough 110 10 (some .noPlan))

theorem test_meets_ConfirmEdgeCreditsFirstRecord :
    Waits (.confirm 0) true 135 (withEdge (.confirm 0) true 135 (tracking 136 [passedRecord, boundRecord]))
    ∧ (0 : OutletId).val < config2.outletsPresent.val
    ∧ FirstOf (confirmCandidate (tracking 136 [passedRecord, boundRecord]) 0 135) [passedRecord] boundRecord []
        (tracking 136 [passedRecord, boundRecord])
    ∧ confirmCandidate (tracking 136 [boundRecord]) 0 154 boundRecord = true
    ∧ (∀ r ∈ (tracking 136 [boundRecord]).tracking, confirmCandidate (tracking 136 [boundRecord]) 0 155 r = false)
    ∧ (∀ r ∈ (tracking 136 [boundRecord]).tracking, confirmCandidate (tracking 136 [boundRecord]) 0 134 r = false) := by decide

/-- The exit edge at `x` of the records `q`, with `n` frames in the hand-off queue. -/
def leaving (x : Pos) (q : List ItemRecord) (n : Nat) (terminal tallies : Bool) : State :=
  withEdge .exit true x
    { tracking x q with
      relay := { (station .tracking).relay with handoffQueue := List.replicate n someFrame }
      config := { config2 with terminal := terminal, tallyPasses := tallies } }

theorem test_meets_ExitEdgeHandsPassedRecordOn :
    Waits .exit true 170 (leaving 170 [passedRecord] 7 false true)
    ∧ FirstOf (exitCandidate (leaving 170 [passedRecord] 7 false true) 170) [] passedRecord [] (leaving 170 [passedRecord] 7 false true)
    ∧ passedRecord.stage = .boundThrough 110 10 (some .noPlan)
    ∧ (leaving 170 [passedRecord] 7 false true).config.terminal = false
    ∧ (leaving 170 [passedRecord] 7 false true).relay.handoffQueue.length < 8
    ∧ (leaving 170 [passedRecord] 7 false true).config.tallyPasses = true
    ∧ (leaving 170 [passedRecord] 7 false false).config.tallyPasses = false
    ∧ 8 ≤ (leaving 170 [passedRecord] 8 false true).relay.handoffQueue.length
    ∧ (leaving 209 [passedRecord] 0 true true).config.terminal = true
    ∧ exitCandidate (leaving 209 [passedRecord] 0 true true) 209 passedRecord = true
    ∧ (∀ r ∈ (leaving 210 [passedRecord] 0 true true).tracking, exitCandidate (leaving 210 [passedRecord] 0 true true) 210 r = false)
    ∧ (∀ r ∈ (leaving 169 [passedRecord] 0 true true).tracking, exitCandidate (leaving 169 [passedRecord] 0 true true) 169 r = false) := by
  decide

theorem test_meets_ExitEdgeFindsDivertMissed :
    Waits .exit true 170 (leaving 170 [boundRecord] 7 false false)
    ∧ FirstOf (exitCandidate (leaving 170 [boundRecord] 7 false false) 170) [] boundRecord [] (leaving 170 [boundRecord] 7 false false)
    ∧ boundRecord.stage = .boundOut 110 10 0 ⟨125, 137⟩
    ∧ (leaving 170 [boundRecord] 7 false false).config.terminal = false
    ∧ (leaving 170 [boundRecord] 7 false false).relay.handoffQueue.length < 8
    ∧ 8 ≤ (leaving 170 [boundRecord] 8 false false).relay.handoffQueue.length
    ∧ (leaving 170 [boundRecord] 0 true false).config.terminal = true := by decide

theorem test_meets_ApproachCloseLosesRecord :
    (tracking 130 [someRecord .expected]).control.mode = .tracking ∧ (tracking 130 [someRecord .expected]).position.last = .forward
    ∧ FirstOf (fun x => isExpected x && decide (plus x.arrival config2.approachMax = 130)) [] (someRecord .expected) []
        (tracking 130 [someRecord .expected]) := by decide

/-- A configuration in which outlet 0 confirms later than the exit window closes: confirm [25, 120), exit [60, 100). -/
def lateConfirm (x : Pos) (q : List ItemRecord) : State :=
  { tracking x q with config := { config2 with outlets := PerOutlet.all ⟨15, 25, 120, 2⟩ } }

/-- A configuration in which outlet 0's confirm window and the exit window close together, 100 past the entry position. -/
def closesTogether (x : Pos) (q : List ItemRecord) : State :=
  { tracking x q with config := { config2 with outlets := PerOutlet.all ⟨15, 25, 100, 2⟩ } }

/-- R59: exit closes at one position are taken in queue order, a BOUND_OUT record whose confirm window closes there too among them. -/
theorem test_exit_closes_in_queue_order :
    after .confirmWindowClose (closesTogether 210 [passedRecord, boundRecord]) = closesTogether 210 [passedRecord, boundRecord]
    ∧ (after .exitWindowClose (closesTogether 210 [passedRecord, boundRecord])).tracking = [boundRecord]
    ∧ (after .confirmWindowClose (closesTogether 210 [boundRecord, passedRecord])).tracking = [passedRecord]
    ∧ (settle (closesTogether 210 [passedRecord, boundRecord])).report.tallyQueue.map (fun f => f.payload.getD 1 0) = [5, 3] := by
  decide

theorem test_meets_ClosesEndResolvedRecords :
    (lateConfirm 230 [boundRecord]).control.mode = .tracking ∧ (lateConfirm 230 [boundRecord]).position.last = .forward
    ∧ boundRecord.stage = .boundOut 110 10 0 ⟨125, 137⟩
    ∧ FirstOf (confirmEnds (lateConfirm 230 [boundRecord])) [] boundRecord [] (lateConfirm 230 [boundRecord])
    ∧ FirstOf (exitEnds (tracking 210 [boundRecord])) [] boundRecord [] (tracking 210 [boundRecord])
    ∧ passedRecord.stage = .boundThrough 110 10 (some .noPlan)
    ∧ FirstOf (exitEnds (tracking 210 [passedRecord])) [] passedRecord [] (tracking 210 [passedRecord])
    ∧ FirstOf (confirmEnds (closesTogether 210 [boundRecord, passedRecord])) [] boundRecord [passedRecord]
        (closesTogether 210 [boundRecord, passedRecord])
    ∧ (∀ r ∈ (closesTogether 210 [passedRecord, boundRecord]).tracking,
        confirmEnds (closesTogether 210 [passedRecord, boundRecord]) r = false)
    ∧ (∀ r ∈ (tracking 155 [boundRecord]).tracking, confirmEnds (tracking 155 [boundRecord]) r = false)
    ∧ (∀ r ∈ (lateConfirm 210 [boundRecord]).tracking, exitEnds (lateConfirm 210 [boundRecord]) r = false) := by decide

theorem test_meets_FiringWindowEndFreesPlace :
    (withSchedule 0 [⟨125, 137⟩, ⟨150, 160⟩] (tracking 137 [boundRecord])).position.last = .forward
    ∧ ((withSchedule 0 [⟨125, 137⟩, ⟨150, 160⟩] (tracking 137 [boundRecord])).outlets.get 0).schedule
        = [] ++ ⟨125, (withSchedule 0 [⟨125, 137⟩, ⟨150, 160⟩] (tracking 137 [boundRecord])).position.pos⟩ :: [⟨150, 160⟩]
    ∧ (∀ w ∈ [] ++ [(⟨150, 160⟩ : Window)], w.closes ≠ 137) := by decide

theorem test_meets_StallAndTestFireEnd :
    (withWatch 4 false (tracking 0 [someRecord .expected])).position.watch = some ⟨4, false⟩
    ∧ (withWatch 4 true (tracking 0 [someRecord .expected])).position.watch = some ⟨4, true⟩ ∧ (station .ready).position.watch = none
    ∧ ((withTestFire 1 (station .ready)).outlets.get 0).testFire = some 1 ∧ ((station .ready).outlets.get 0).testFire = none := by decide

theorem test_meets_AckTimeoutRetriesOrQuiets :
    (withChannel (outstanding 2 (some ⟨20, 19⟩)) (station .ready)).report.channel.state = .outstanding
    ∧ (withChannel (outstanding 2 (some ⟨20, 19⟩)) (station .ready)).report.channel.timer.isSome = true
    ∧ (outstanding 2 (some ⟨20, 19⟩)).retry.toNat < (station .ready).config.noticeRetries.toNat
    ∧ (station .ready).config.noticeRetries.toNat ≤ (outstanding 3 (some ⟨20, 19⟩)).retry.toNat
    ∧ (station .ready).report.channel.state ≠ .outstanding
    ∧ (withChannel (outstanding 2 none) (station .ready)).report.channel.timer = none := by decide

theorem test_meets_NoticeChoiceTakesHighestSource :
    (withPending (station .ready)).report.channel.state = .idle ∧ allSources[(1 : Fin 10).val]? = some .divertFault
    ∧ (withPending (station .ready)).report.sources[(1 : Fin 10)].pending = true
    ∧ (withPending (station .ready)).report.sources[(1 : Fin 10)].masked = false
    ∧ (∀ j : Fin 10, j.val < (1 : Fin 10).val →
        (withPending (station .ready)).report.sources[j].pending = false ∨ (withPending (station .ready)).report.sources[j].masked = true)
    ∧ (withChannel (outstanding 0 none) (station .ready)).report.channel.state ≠ .idle
    ∧ (∀ i : Fin 10, (station .ready).report.sources[i].pending = false ∨ (station .ready).report.sources[i].masked = true) := by decide

theorem test_meets_NoticesAcknowledgedAndMasked :
    Takes 7 1 1 (withChannel (outstanding 0 none) (station .ready))
    ∧ (withChannel (outstanding 0 none) (station .ready)).report.channel.state ≠ .idle
    ∧ (withChannel (outstanding 0 none) (station .ready)).report.channel.outstanding = some someNotice
    ∧ someNotice.seq = 4 ∧ someNotice.seq ≠ 5
    ∧ Takes 7 1 1 (station .trackLost) ∧ (station .trackLost).report.channel.state = .idle
    ∧ Takes 7 1 2 (station .tracking) := by decide

theorem test_meets_PortsGoUpAndDown :
    (State.reset).resetHeld = false ∧ (State.reset.links.get .u).up = false ∧ (State.reset.links.get .d).up = false
    ∧ ((station .ready).links.get .u).up = true
    ∧ Hears .u (withFramer .u (.inFrame [1]) 3 (station .ready)) ∧ Assembles .u (withFramer .u (.inFrame [1]) 3 (station .ready))
    ∧ Hears .d (withFramer .d .discard 3 (station .ready)) ∧ ¬ Assembles .d (withFramer .d .discard 3 (station .ready))
    ∧ ((withFramer .u (.inFrame [1]) 3 (station .ready)).links.get .u).violationRun = 3
    ∧ ((withFramer .d .discard 3 (station .ready)).links.get .d).violationRun = 3
    ∧ ((withFramer .d .discard 2 (station .ready)).links.get .d).violationRun ≠ 3
    ∧ (after .resetAsserted (station .ready)).resetHeld = true :=
  ⟨by decide, by decide, by decide, by decide, by decide, ⟨_, rfl⟩, by decide, fun ⟨_, h⟩ => (by cases h), by decide, by decide, by decide,
    by decide⟩

theorem test_meets_ReceiveErrorsTaken :
    Hears .u (station .ready) ∧ ((station .ready).links.get .u).framer = .between
    ∧ ¬ Assembles .u (withFramer .u .discard 2 (station .ready))
    ∧ ((withFramer .u .discard 2 (station .ready)).links.get .u).violationRun < 3
    ∧ ((withFramer .u .discard 3 (station .ready)).links.get .u).violationRun = 3
    ∧ ((withFramer .u .discard 3 (station .ready)).links.get .u).framer ≠ .between
    ∧ Assembles .d (withFramer .d (.inFrame []) 0 (station .ready)) ∧ ¬ Hears .d State.reset :=
  ⟨by decide, by decide, fun ⟨_, h⟩ => (by cases h), by decide, by decide, by decide, ⟨_, rfl⟩, by decide⟩

/-- The bytes of a frame of kind 0x04, address 9 and payload [5], with its CRC-16. -/
def goodBytes : List Byte := 0x04 :: 9 :: 1 :: ([5] ++ two (crc16 [0x04, 9, 1, 5]))

theorem test_meets_SymbolTable :
    (after .resetAsserted (station .ready)).resetHeld = true
    ∧ (State.reset.resetHeld = false ∧ (State.reset.links.get .u).up = false ∧ (State.reset.links.get .u).alignRun < 31
        ∧ Symbol.data 1 ≠ .violation)
    ∧ 31 ≤ (({ State.reset with links := ⟨downLink 31, downLink 30⟩ } : State).links.get .u).alignRun
    ∧ (({ State.reset with links := ⟨downLink 31, downLink 30⟩ } : State).links.get .d).alignRun < 31
    ∧ Hears .u (station .ready) ∧ ((station .ready).links.get .u).framer = .between
    ∧ ((withFramer .u .discard 2 (station .ready)).links.get .u).framer = .discard
    ∧ ((withFramer .u (.inFrame [1, 0]) 2 (station .ready)).links.get .u).framer = .inFrame [1, 0]
    ∧ Overfull [1, 0] 81 ∧ ¬ Overfull [1, 0] 80 ∧ Overfull [1, 0, 0, 1, 2] 3 ∧ ¬ Overfull [1, 0, 0, 1] 2
    ∧ Incomplete [1, 0] ∧ Incomplete [1, 0, 0, 1] ∧ ¬ Incomplete goodBytes
    ∧ (goodBytes = 0x04 :: 9 :: 1 :: ([5] ++ two (crc16 [0x04, 9, 1, 5])) ∧ ([5] : List Byte).length = (1 : Byte).toNat
        ∧ ((0x04 : Byte).getLsbD 7 = true ↔ Port.d = .u))
    ∧ ([1, 2] : List Byte) ≠ two (crc16 [0x04, 9, 1, 5])
    ∧ ((withFramer .u .discard 3 (station .ready)).links.get .u).violationRun = 3
    ∧ ((withFramer .u .discard 2 (station .ready)).links.get .u).violationRun = 2
    ∧ Assembles .u (withFramer .u (.inFrame [1, 0]) 3 (station .ready)) ∧ ¬ Assembles .u (withFramer .u .discard 3 (station .ready)) := by
  refine ⟨by decide, by decide, by decide, by decide, by decide, by decide, by decide, by decide, Or.inl (by decide), ?_,
    Or.inr ⟨1, 0, 0, [1, 2], rfl, by decide⟩, ?_, Or.inl (by decide), Or.inr ⟨1, 0, 0, [1], rfl, by decide⟩, ?_,
    ⟨rfl, by decide, by decide⟩, by decide +kernel, by decide, by decide, ⟨_, rfl⟩, fun ⟨_, h⟩ => (by cases h)⟩
  · rintro (h | ⟨k, a, n, rest, h, _⟩)
    · exact absurd h (by decide)
    · cases h
  · rintro (h | ⟨k, a, n, rest, h, h'⟩)
    · exact absurd h (by decide)
    · cases h
      exact absurd h' (by decide)
  · rintro (h | ⟨k, a, n, rest, h, h'⟩)
    · exact absurd h (by decide)
    · cases h
      exact absurd h' (by decide)

theorem test_meets_SymbolsMakeFrame :
    Hears .u (withFramer .u .discard 3 (station .ready)) ∧ (⟨0x04, 9, List.replicate 80 1⟩ : Frame).payload.length ≤ 80
    ∧ Hears .d (station .ready) ∧ someFrame.payload.length ≤ 80 := by decide

/-- The payload of an ITEM of tag 1, destination 5, plan 9, no flags, hop 2, length 0 and one note. -/
def somePayload : List Byte := [0, 1, 0x80, 5, 9, 0, 2, 0, 0, 1, 62, 9]

theorem test_meets_ItemReadBack :
    (List.replicate 6 (⟨62, .divertMissed⟩ : Note)).length ≤ 6
    ∧ (∀ n ∈ List.replicate 6 (⟨62, .divertMissed⟩ : Note), NoteFits n)
    ∧ ((⟨true, false, false, false⟩ : Flags).stray = true ∧ (some (4095 : BitVec 12)).isSome = true) := by decide

/-- The fields of `somePayload`. -/
def someFields : ItemFields := ⟨1, some 5, 9, ⟨false, false, false, false⟩, 2, 0, false, [⟨62, .divertMissed⟩]⟩

theorem test_meets_ItemTracked :
    Hears .u (tracking 200 [strayOne (.onEye 150)]) ∧ (tracking 200 [strayOne (.onEye 150)]).control.mode = .tracking
    ∧ somePayload.length ≤ 80 ∧ parseItem somePayload = some someFields
    ∧ (∀ x ∈ (tracking 200 [strayOne (.onEye 150)]).tracking, isExpected x = false)
    ∧ FirstOf isOnEye [] (strayOne (.onEye 150)) [] (tracking 200 [strayOne (.onEye 150)])
    ∧ (strayOne (.onEye 150)).flags.stray = true ∧ someFields.flags.stray = false
    ∧ (∃ x ∈ (tracking 200 (List.replicate 31 (someRecord .expected))).tracking, isExpected x = true)
    ∧ (tracking 200 (List.replicate 31 (someRecord .expected))).tracking.length < 32
    ∧ 32 ≤ (tracking 200 (List.replicate 32 (someRecord .expected))).tracking.length
    ∧ (∀ r ∈ (tracking 200 []).tracking, isOnEye r = true → r.flags.stray = false) := by decide

theorem test_meets_ItemOutOfService :
    Hears .u (station .ready) ∧ somePayload.length ≤ 80 ∧ (station .trackLost).control.mode ≠ .transparent
    ∧ (station .trackLost).control.mode ≠ .tracking ∧ parseItem somePayload = some someFields
    ∧ (leaving 170 [] 7 false false).config.terminal = false ∧ (leaving 170 [] 7 false false).relay.handoffQueue.length < 8
    ∧ 8 ≤ (leaving 170 [] 8 false false).relay.handoffQueue.length ∧ (leaving 170 [] 8 true false).config.terminal = true
    ∧ RefusedItem (List.replicate 9 0) ∧ RefusedItem [0, 1, 0x80, 5, 9, 0, 2, 0, 0, 1, 63, 9] ∧ RefusedItem [0, 1, 0, 5, 9, 0, 2, 0, 0, 0]
    ∧ Hears .u (station .transparent) ∧ (station .transparent).control.mode = .transparent := by
  refine ⟨by decide, by decide, by decide, by decide, by decide, by decide, by decide, by decide, by decide, Or.inl (by decide),
    Or.inr (Or.inr (Or.inr (Or.inl ⟨0, by decide, by decide⟩))), Or.inr (Or.inr (Or.inr (Or.inr (by decide)))), by decide, by decide⟩

theorem test_meets_EnumerateTaken :
    Hears .u (station .ready) ∧ ([] : List Byte).length ≤ 80 ∧ 64 ≤ (64 : Byte).toNat
    ∧ 1 ≤ (1 : Byte).toNat ∧ (1 : Byte).toNat ≤ 62 ∧ 1 ≤ (62 : Byte).toNat ∧ (62 : Byte).toNat ≤ 62
    ∧ (station .ready).control.mode ≠ .transparent
    ∧ Hears .u (station .transparent) ∧ (station .transparent).control.mode = .transparent := by decide

theorem test_meets_FramesRelayed :
    Hears .u (station .transparent) ∧ (station .transparent).control.mode = .transparent
    ∧ ((⟨0x02, 7, [1, 1]⟩ : Frame).payload.length ≤ 80 ∧ (0x02 : Byte).getLsbD 7 = false ∧ (0x02 : Byte) ≠ 0x03)
    ∧ ((0x7F : Byte).getLsbD 7 = false ∧ (0x7F : Byte) ≠ 0x01 ∧ (0x7F : Byte) ≠ 0x02 ∧ (0x7F : Byte) ≠ 0x03)
    ∧ ((8 : Byte) ≠ (station .ready).relay.address.setWidth 8 ∧ (8 : Byte) ≠ 63)
    ∧ Hears .d (station .ready) ∧ someFrame.kind.getLsbD 7 = true ∧ (station .ready).relay.upQueue.length < 8
    ∧ 8 ≤ ({ station .ready with relay := { (station .ready).relay with upQueue := List.replicate 8 someFrame } } : State).relay.upQueue.length
    ∧ 80 < (List.replicate 81 (0 : Byte)).length ∧ ¬ Hears .u State.reset ∧ ¬ Hears .d State.reset
    ∧ requestOf (.readRoute .b 7 1 [0, 0, 1]) = some (7, 1, 0x01, [4, 0, 0, 1]) := by decide

/-- The state with frames in the four queues of the arbiters. -/
def withQueues (up tallies down handoff : List Frame) (u : UTurn) (d : DTurn) : State :=
  { station .ready with
    relay := { (station .ready).relay with upQueue := up, downQueue := down, handoffQueue := handoff, uTurn := u, dTurn := d }
    report := { (station .ready).report with tallyQueue := tallies } }

theorem test_meets_GrantsFollowOrder :
    (station .ready).links.u.up = true ∧ (station .ready).relay.txU = .idle
    ∧ (withReply (station .ready)).request.slot = some someFrame
    ∧ (withChannel { outstanding 0 none with slot := some someFrame } (station .ready)).report.channel.slot = some someFrame
    ∧ (withQueues [someFrame] [someFrame] [someFrame] [someFrame] .relay .relay).relay.upQueue = someFrame :: []
    ∧ (withQueues [someFrame] [someFrame] [someFrame] [someFrame] .relay .relay).relay.uTurn = .relay
    ∧ (withQueues [someFrame] [] [someFrame] [] .tally .handoff).report.tallyQueue = []
    ∧ (withQueues [someFrame] [someFrame] [someFrame] [someFrame] .tally .handoff).report.tallyQueue = someFrame :: []
    ∧ (withQueues [someFrame] [someFrame] [someFrame] [someFrame] .tally .handoff).relay.uTurn = .tally
    ∧ (withQueues [] [someFrame] [] [someFrame] .relay .relay).relay.upQueue = []
    ∧ (station .ready).request.slot = none ∧ (station .ready).report.channel.slot = none
    ∧ State.reset.links.u.up = false ∧ (after .resetAsserted State.reset).relay.txU ≠ .idle
    ∧ (station .ready).links.d.up = true ∧ (station .ready).relay.txD = .idle
    ∧ (withQueues [] [] [someFrame] [someFrame] .relay .relay).relay.downQueue = someFrame :: []
    ∧ (withQueues [] [] [someFrame] [someFrame] .relay .handoff).relay.handoffQueue = someFrame :: []
    ∧ (withQueues [] [] [someFrame] [someFrame] .relay .handoff).relay.dTurn = .handoff
    ∧ State.reset.links.d.up = false ∧ (after .resetAsserted State.reset).relay.txD ≠ .idle := by decide

/-- The station sending a frame on both ports. -/
def sending (src : TxSource) (notice : Bool) : State :=
  withChannel { outstanding 0 none with sending := notice }
    { station .ready with
      relay := { (station .ready).relay with txU := .sending src (wire someFrame), txD := .sending .handoff (wire someFrame) } }

theorem test_meets_SendingCompletes :
    (sending .notice true).relay.txU = .sending .notice (wire someFrame) ∧ (sending .notice true).report.channel.sending = true
    ∧ (sending .notice false).report.channel.sending = false
    ∧ (sending .reply false).relay.txU = .sending .reply (wire someFrame) ∧ TxSource.reply ≠ .notice
    ∧ (sending .reply false).relay.txD = .sending .handoff (wire someFrame)
    ∧ (station .ready).relay.txU = .idle ∧ (station .ready).relay.txD = .idle
    ∧ (after .resetAsserted State.reset).relay.txU = .silent ∧ (after .resetAsserted State.reset).relay.txD = .silent :=
  ⟨rfl, rfl, rfl, rfl, by decide, rfl, rfl, rfl, rfl, rfl⟩

theorem test_meets_RequestPath :
    requestOf (.openPlan 7 1 [0, 9]) = some (7, 1, 0x10, [0, 9]) ∧ OwnRequest 7 2 (withReply (station .ready))
    ∧ (withReply (station .ready)).request.slot.isSome = true
    ∧ OwnRequest 7 3 (withCheck (station .ready)) ∧ (withCheck (station .ready)).request.slot = none
    ∧ (withCheck (station .ready)).route.check = some ⟨.a, 0, 4⟩
    ∧ requestOf (.commitPlan 7 4 [0, 0, 0]) = some (7, 4, 0x12, [0, 0, 0])
    ∧ requestOf (.restart 7 5 []) = some (7, 5, 0x23, [])
    ∧ ({ station .ready with request := ⟨none, some (1, someFrame)⟩ } : State).request.cache = some (1, someFrame)
    ∧ (∀ f, (station .ready).request.cache ≠ some (1, f))
    ∧ requestOf (.unknownRequest 7 1 0x50 []) = some (7, 1, 0x50, []) ∧ argumentBytes 0x50 = none
    ∧ argumentBytes 0x10 = some 2 ∧ ([0] : List Byte).length ≠ 2 ∧ OwnRequest 7 78 (station .tracking)
    ∧ OwnRequest 7 ([1] : List Byte).length (station .tracking) ∧ ([1] : List Byte).length < 2 :=
  ⟨rfl, by decide, rfl, by decide, rfl, rfl, rfl, rfl, rfl, (fun _ h => by cases h), rfl, by decide, by decide, by decide, by decide,
    by decide, by decide⟩

theorem consistent2 : Consistent config2 := by
  intro n h1 h2
  interval_cases n <;> decide

theorem test_meets_BroadcastRequests :
    requestOf (.startTracking 63 1 []) = some (63, 1, 0x20, []) ∧ Hears .u (station .ready) ∧ ([] : List Byte).length ≤ 78
    ∧ (station .ready).control.mode ≠ .transparent ∧ (station .ready).relay.address.toNat ≤ 62
    ∧ (station .ready).control.mode = .ready ∧ Consistent (station .ready).config ∧ (station .tracking).control.mode = .tracking
    ∧ ¬ Consistent StationConfig.powerOn
    ∧ requestOf (.stopTracking 63 1 []) = some (63, 1, 0x21, []) ∧ requestOf (.restart 63 1 []) = some (63, 1, 0x23, [])
    ∧ requestOf (.recover 63 1 []) = some (63, 1, 0x22, []) ∧ ([1] : List Byte).length < 2 :=
  ⟨rfl, by decide, by decide, by decide, by decide, rfl, consistent2, rfl, fun h => absurd (h 1 (by decide) (by decide)) (by decide), rfl,
    rfl, rfl, by decide⟩

theorem test_meets_WholeObjectsRead : Takes 7 1 4 (station .tracking) ∧ (1 : Byte) ≠ 0 ∧ (2 : Byte) ≠ 1 := by decide

theorem test_meets_RangesRead :
    Takes 7 1 4 (tracking 200 [passedRecord, boundRecord]) ∧ 1 ≤ (16 : Byte).toNat ∧ (16 : Byte).toNat ≤ 16
    ∧ 256 * (0x03 : Byte).toNat + (0xF0 : Byte).toNat + (16 : Byte).toNat ≤ 1024
    ∧ 1024 < 256 * (0x03 : Byte).toNat + (0xF1 : Byte).toNat + (16 : Byte).toNat ∧ 16 < (17 : Byte).toNat
    ∧ (∀ r ∈ (tracking 200 [passedRecord, boundRecord]).tracking, r.trail.length ≤ 6)
    ∧ 256 * (0 : Byte).toNat + (31 : Byte).toNat < 32 ∧ (3 : Byte).toNat ≤ 3 ∧ 32 ≤ 256 * (0 : Byte).toNat + (32 : Byte).toNat
    ∧ 3 < (4 : Byte).toNat ∧ 256 * (0 : Byte).toNat + (3 : Byte).toNat = (3 : OutletId).val
    ∧ 4 ≤ 256 * (0 : Byte).toNat + (4 : Byte).toNat := by decide

/-- Value bytes of group 0 with every field at the end of its range. -/
def stationGroup : List Byte := [4, 0x13, 1, 1]

theorem test_meets_ConfigWritten :
    Takes 7 1 5 (station .tracking) ∧ (station .tracking).control.mode ≠ .ready ∧ (station .tracking).control.mode ≠ .trackLost
    ∧ Takes 7 1 5 (station .ready) ∧ (station .ready).control.mode = .ready ∧ (station .trackLost).control.mode = .trackLost
    ∧ 7 < (8 : Byte).toNat ∧ stationGroup.length ≠ groupSize (2 : Byte).toNat ∧ stationGroup.length = groupSize (0 : Byte).toNat
    ∧ OutOfRange (0 : Byte).toNat [5, 0x14, 2, 2] 0 ∧ OutOfRange (0 : Byte).toNat [4, 0x14, 2, 2] 1
    ∧ (∀ j, j < 1 → ¬ OutOfRange (0 : Byte).toNat [4, 0x14, 2, 2] j)
    ∧ (∀ i, ¬ OutOfRange (0 : Byte).toNat stationGroup i)
    ∧ Takes 7 1 0 (station .ready) ∧ Takes 7 1 0 (station .tracking)
    ∧ Takes 7 1 5 (withEdge .entry true 120 (station .ready)) ∧ Waits .entry true 120 (withEdge .entry true 120 (station .ready)) := by
  refine ⟨by decide, by decide, by decide, by decide, by decide, by decide, by decide, by decide, by decide, ?_, ?_, ?_, ?_, by decide,
    by decide, by decide, by decide⟩
  · show 4 < ([5, 0x14, 2, 2].getD 0 (0 : Byte)).toNat
    decide
  · show [4, 0x14, 2, 2].getD 1 (0 : Byte) ≠ 0x00 ∧ ([4, 0x14, 2, 2].getD 1 (0 : Byte)).toNat / 4 ≠ 4
    decide
  · intro j hj
    obtain rfl : j = 0 := by omega
    show ¬ 4 < ([4, 0x14, 2, 2].getD 0 (0 : Byte)).toNat
    decide
  · intro i
    match i with
    | 0 => show ¬ 4 < (stationGroup.getD 0 (0 : Byte)).toNat; decide
    | 1 => show ¬ (stationGroup.getD 1 (0 : Byte) ≠ 0x00 ∧ (stationGroup.getD 1 (0 : Byte)).toNat / 4 ≠ 4); decide
    | 2 => show ¬ 1 < (stationGroup.getD 2 (0 : Byte)).toNat; decide
    | 3 => show ¬ 1 < (stationGroup.getD 3 (0 : Byte)).toNat; decide
    | _ + 4 => exact id

theorem test_meets_CountersRead :
    Takes 7 1 3 (station .tracking) ∧ 1 ≤ (16 : Byte).toNat ∧ (16 : Byte).toNat ≤ 16 ∧ (17 : Byte).toNat + (16 : Byte).toNat ≤ 33
    ∧ 16 < (17 : Byte).toNat ∧ 33 < (18 : Byte).toNat + (16 : Byte).toNat := by decide

theorem test_meets_PlansOpenedAndDropped :
    Takes 7 1 2 (station .ready) ∧ 1 < (2 : Byte).toNat ∧ (1 : Byte) = bankByte .b ∧ (9 : Byte) ≠ 0
    ∧ Takes 7 1 2 (withEntry 0 0 0 0 (tracking 100 [someRecord .expected]))
    ∧ references (withEntry 0 0 0 0 (tracking 100 [someRecord .expected])) .a ≠ 0
    ∧ references (withEntry 0 0 0 0 (station .ready)) .b = 0
    ∧ bankPlan (bankOf (withEntry 0 0 0 0 (station .ready)).route (otherBank .b)) = some 9
    ∧ bankPlan (bankOf (withEntry 0 0 0 0 (station .ready)).route (otherBank .b)) ≠ some 8
    ∧ Takes 7 1 1 (station .ready) := by decide

theorem test_meets_SegmentWritten :
    Takes 7 1 66 (withBankA (.loading 9) (station .ready)) ∧ (List.replicate 64 (0 : Byte)).length = 64
    ∧ 1 < (2 : Byte).toNat ∧ 64 ≤ (64 : Byte).toNat ∧ (0 : Byte) = bankByte .a ∧ (63 : Byte).toNat = (63 : Fin 64).val
    ∧ (∀ plan, (bankOf (withBankA (.committed 9) (station .ready)).route .a).state ≠ .loading plan)
    ∧ (bankOf (withBankA (.loading 9) (station .ready)).route .a).state = .loading 9
    ∧ (∃ j, j < 16 ∧ entryWellFormed ((List.replicate 60 0 ++ [2, 0, 0, 0] : List Byte).getD (4 * j) 0)
        ((List.replicate 60 0 ++ [2, 0, 0, 0] : List Byte).getD (4 * j + 1) 0) = false)
    ∧ (∀ j, j < 16 → entryWellFormed ((List.replicate 64 (0 : Byte)).getD (4 * j) 0) ((List.replicate 64 (0 : Byte)).getD (4 * j + 1) 0) = true)
    ∧ Memory.wf (bankOf (withBankA (.loading 9) (station .ready)).route .a).mem = true :=
  ⟨by decide, by decide, by decide, by decide, by decide, by decide, fun _ h => (by cases h), rfl, ⟨15, by decide, by decide⟩, by decide,
    by decide⟩

/-- The CRC-16 of the all-zero bank is some value: the completion matches it or it does not, by the expected value given. -/
theorem test_meets_PlanCommitted :
    Takes 7 1 3 (withBankA (.loading 9) (station .ready)) ∧ 1 < (2 : Byte).toNat ∧ (0 : Byte) = bankByte .a
    ∧ (∀ plan, (bankOf (withBankA .empty (station .ready)).route .a).state ≠ .loading plan)
    ∧ (bankOf (withBankA (.loading 9) (station .ready)).route .a).state = .loading 9
    ∧ (∀ expected : BitVec 16,
        (⟨BankId.a, expected, 4⟩ : BankCheck) = ⟨.a, expected, 4⟩
        ∧ ({ withCheck (station .ready) with route := { (withCheck (station .ready)).route with check := some ⟨.a, expected, 4⟩ } }
            : State).route.check = some ⟨.a, expected, 4⟩)
    ∧ (bankOf (withCheck (station .ready)).route .a).state = .committing 9
    ∧ (station .ready).route.check = none :=
  ⟨by decide, by decide, by decide, (fun _ h => by cases h), rfl, fun _ => ⟨rfl, rfl⟩, rfl, rfl⟩

/-- `config2` with a confirm window of outlet 1 that opens where it fires. -/
def config4 : StationConfig := { config2 with outlets := config2.outlets.set 1 ⟨25, 25, 45, 2⟩ }

theorem test_meets_TrackingStarts :
    Takes 7 1 0 (station .tracking) ∧ (station .tracking).control.mode ≠ .ready
    ∧ Takes 7 1 0 (station .ready) ∧ (station .ready).control.mode = .ready ∧ Consistent (station .ready).config
    ∧ FirstUnmet StationConfig.powerOn 1 0xFF ∧ FirstUnmet config4 4 1 := by
  refine ⟨by decide, by decide, by decide, by decide, consistent2, ?_, ?_⟩
  · exact ⟨by decide, by decide, by decide, fun m h1 h2 => by omega, by decide, by decide, by decide⟩
  · refine ⟨by decide, by decide, by decide, ?_, fun _ => ⟨1, by decide, by decide, by decide, by decide⟩, by decide, by decide⟩
    intro m h1 h2
    interval_cases m <;> decide

theorem test_meets_TrackingEnds :
    Takes 7 1 0 (station .tracking) ∧ (station .tracking).control.mode = .tracking
    ∧ Takes 7 1 0 (station .trackLost) ∧ (station .trackLost).control.mode = .trackLost
    ∧ Takes 7 1 0 (station .ready) ∧ (station .ready).control.mode ≠ .tracking ∧ (station .ready).control.mode ≠ .trackLost
    ∧ OwnRequest 7 0 (withCheck (withReply (station .tracking)))
    ∧ (∀ f, (withCheck (withReply (station .tracking))).request.cache ≠ some (1, f)) :=
  ⟨by decide, by decide, by decide, by decide, by decide, by decide, by decide, by decide, fun _ h => by cases h⟩

theorem test_meets_ModeTransitions :
    exec .stall (station .tracking) = .next (after .stall (station .tracking)) ∧ ¬ ModeCommand .stall
    ∧ (after .resetAsserted (station .ready)).control.mode = .transparent
    ∧ (after (.enumerate 7 []) (station .transparent)).control.mode = .ready
    ∧ (after (.stopTracking 63 1 []) (station .tracking)).control.mode = .ready
    ∧ (after (.recover 7 1 []) (station .trackLost)).control.mode = .ready
    ∧ (after (.restart 7 1 []) (station .trackLost)).control.mode = .ready
    ∧ (after (.startTracking 7 1 []) (station .ready)).control.mode = .tracking
    ∧ (after .reversal (reversed 4)).control.mode = .trackLost
    ∧ (after .forwardCount (reversed 4)).control.mode = .trackLost := by
  refine ⟨rfl, ?_, by decide, by decide, by decide, by decide, by decide, by decide, by decide, by decide⟩
  rintro (h | h | h | h | h | ⟨_, h⟩ | ⟨_, _, h⟩ | ⟨_, h⟩ | h | ⟨_, _, _, _, h, _⟩) <;> cases h

theorem test_meets_FireTestStarts :
    Takes 7 1 3 (station .tracking) ∧ (station .tracking).control.mode ≠ .ready
    ∧ Takes 7 1 3 (station .ready) ∧ (station .ready).control.mode = .ready
    ∧ 3 < (4 : Byte).toNat ∧ (station .ready).config.outletsPresent.val ≤ (2 : Byte).toNat ∧ 1000 < (1001 : BitVec 16).toNat
    ∧ (1 : Byte).toNat = (1 : OutletId).val ∧ (1 : OutletId).val < (station .ready).config.outletsPresent.val
    ∧ 1 ≤ (1 : BitVec 16).toNat ∧ (1000 : BitVec 16).toNat ≤ 1000
    ∧ ((withTestFire 1 (station .ready)).outlets.get 0).testFire.isSome = true
    ∧ ((station .ready).outlets.get 1).testFire = none := by decide

end Sys2Proof.Tests
end

section
/-! PROOFS. What a step can touch: the events that change the tracking queue, the schedules, the mode, the eyes or the address, and the
one induction over the dispatch from which the step invariants of capacity, mode and queue order follow. -/

namespace Sys2Proof.Machine

open Sys2Proof.Safety

/-! ## What most of the machine leaves alone -/

/-- `t` agrees with `s` in all that the invariants of capacity, mode and queue order read, but for the queues of frames; each of those is
within its capacity in `t` where it is in `s`. -/
structure Untouched (s t : State) : Prop where
  resetHeld : t.resetHeld = s.resetHeld
  control : t.control = s.control
  address : t.relay.address = s.relay.address
  config : t.config = s.config
  position : t.position = s.position
  sensor : t.sensor = s.sensor
  tracking : t.tracking = s.tracking
  outlets : t.outlets = s.outlets
  tallies : s.report.tallyQueue.length ≤ 16 → t.report.tallyQueue.length ≤ 16
  down : s.relay.downQueue.length ≤ 8 → t.relay.downQueue.length ≤ 8
  up : s.relay.upQueue.length ≤ 8 → t.relay.upQueue.length ≤ 8
  handoff : s.relay.handoffQueue.length ≤ 8 → t.relay.handoffQueue.length ≤ 8

namespace Untouched

theorem refl (s : State) : Untouched s s := ⟨rfl, rfl, rfl, rfl, rfl, rfl, rfl, rfl, id, id, id, id⟩

theorem trans {s t u : State} (h : Untouched s t) (k : Untouched t u) : Untouched s u where
  resetHeld := k.resetHeld.trans h.resetHeld
  control := k.control.trans h.control
  address := k.address.trans h.address
  config := k.config.trans h.config
  position := k.position.trans h.position
  sensor := k.sensor.trans h.sensor
  tracking := k.tracking.trans h.tracking
  outlets := k.outlets.trans h.outlets
  tallies := k.tallies ∘ h.tallies
  down := k.down ∘ h.down
  up := k.up ∘ h.up
  handoff := k.handoff ∘ h.handoff

/-! The parts of the state that may change freely. -/

theorem links (l : PerPort LinkPort) (s : State) : Untouched s { s with links := l } :=
  ⟨rfl, rfl, rfl, rfl, rfl, rfl, rfl, rfl, id, id, id, id⟩

theorem request (r : RequestUnit) (s : State) : Untouched s { s with request := r } :=
  ⟨rfl, rfl, rfl, rfl, rfl, rfl, rfl, rfl, id, id, id, id⟩

theorem route (r : RouteStore) (s : State) : Untouched s { s with route := r } :=
  ⟨rfl, rfl, rfl, rfl, rfl, rfl, rfl, rfl, id, id, id, id⟩

theorem pending (q : List Instr) (s : State) : Untouched s { s with pending := q } :=
  ⟨rfl, rfl, rfl, rfl, rfl, rfl, rfl, rfl, id, id, id, id⟩

theorem report (r : ReportUnit) (s : State) (h : r.tallyQueue.length ≤ s.report.tallyQueue.length) :
    Untouched s { s with report := r } :=
  ⟨rfl, rfl, rfl, rfl, rfl, rfl, rfl, rfl, h.trans, id, id, id⟩

theorem relay (r : RelayUnit) (s : State) (ha : r.address = s.relay.address)
    (hd : r.downQueue.length ≤ s.relay.downQueue.length) (hu : r.upQueue.length ≤ s.relay.upQueue.length)
    (hh : r.handoffQueue.length ≤ s.relay.handoffQueue.length) : Untouched s { s with relay := r } :=
  ⟨rfl, rfl, ha, rfl, rfl, rfl, rfl, rfl, id, hd.trans, hu.trans, hh.trans⟩

/-! Counters, sources, tallies, queues and replies. -/

theorem bumpBy (c : Counter) (n : Nat) (s : State) : Untouched s (bumpBy c n s) := report _ s le_rfl

theorem bump (c : Counter) (s : State) : Untouched s (bump c s) := bumpBy c 1 s

theorem occur (src : Source) (s : State) : Untouched s (occur src s) := report _ s le_rfl

theorem occurLinkChange (p : Port) (s : State) : Untouched s (occurLinkChange p s) := report _ s le_rfl

theorem offerTally (t : Tally) (s : State) : Untouched s (offerTally t s) := by
  dsimp only [Machine.offerTally]
  split
  case isTrue h =>
    exact ⟨rfl, rfl, rfl, rfl, rfl, rfl, rfl, rfl, fun _ => by simpa [Config.tallyCapacity] using h, id, id, id⟩
  case isFalse => exact report _ s le_rfl

theorem offerDown (f : Frame) (s : State) : Untouched s (offerDown f s) := by
  unfold Machine.offerDown
  split
  case isTrue h =>
    have hl : s.relay.downQueue.length < 8 := of_decide_eq_true (Bool.and_eq_true_iff.mp h).2
    exact ⟨rfl, rfl, rfl, rfl, rfl, rfl, rfl, rfl, id, fun _ => by simpa using hl, id, id⟩
  case isFalse => exact bump _ s

theorem offerUp (f : Frame) (s : State) : Untouched s (offerUp f s) := by
  unfold Machine.offerUp
  split
  case isTrue h =>
    exact ⟨rfl, rfl, rfl, rfl, rfl, rfl, rfl, rfl, id, id, fun _ => by simpa [Config.relayCapacity] using h, id⟩
  case isFalse => exact (bump _ s).trans (occur _ _)

theorem pushHandoff (f : Frame) (s : State) (h : handoffRoom s = true) : Untouched s (pushHandoff f s) :=
  have hl : s.relay.handoffQueue.length < 8 := of_decide_eq_true h
  ⟨rfl, rfl, rfl, rfl, rfl, rfl, rfl, rfl, id, id, id, fun _ => by simpa using hl⟩

theorem placeFrame (f : Frame) (s : State) : Untouched s (placeFrame f s) := request _ s

theorem reply (num code : Byte) (st : Status) (data : List Byte) (s : State) : Untouched s (reply num code st data s) :=
  request _ s

theorem replyMode (num code : Byte) (s : State) : Untouched s (replyMode num code s) := request _ s

theorem replyBusy (num code : Byte) (s : State) : Untouched s (replyBusy num code s) := request _ s

/-! The link ports. -/

theorem setLink (p : Port) (l : LinkPort) (s : State) : Untouched s (setLink p l s) := links _ s

theorem setFramer (p : Port) (f : Framer) (s : State) : Untouched s (setFramer p f s) := links _ s

theorem setViolationRun (p : Port) (n : Nat) (s : State) : Untouched s (setViolationRun p n s) := links _ s

theorem setAlignRun (p : Port) (n : Nat) (s : State) : Untouched s (setAlignRun p n s) := links _ s

theorem takeRxError (p : Port) (e : RxKind) (s : State) : Untouched s (takeRxError p e s) :=
  (setLink p _ s).trans (report _ _ le_rfl)

theorem portGoesUp (p : Port) (s : State) : Untouched s (portGoesUp p s) := (setLink p _ s).trans (occurLinkChange p _)

theorem discardDownQueue (s : State) : Untouched s (discardDownQueue s) :=
  (relay { s.relay with downQueue := [] } s rfl (Nat.zero_le _) le_rfl le_rfl).trans (bumpBy _ _ _)

theorem portGoesDown (p : Port) (s : State) : Untouched s (portGoesDown p s) := by
  have truncated : Untouched s (if assembling (s.links.get p) then Machine.takeRxError p .truncated s else s) := by
    split
    · exact takeRxError p _ s
    · exact refl s
  have down : ∀ l, Untouched s _ := fun l => (truncated.trans (setLink p l _)).trans (occurLinkChange p _)
  cases p with
  | u => exact down _
  | d => exact (down _).trans (discardDownQueue _)

theorem violationSymbol (p : Port) (s : State) : Untouched s (violationSymbol p s) := by
  have counted : Untouched s _ :=
    ((takeRxError p (if assembling (s.links.get p) then .truncated else .violation) s).trans
      (setFramer p .discard _)).trans (setViolationRun p ((s.links.get p).violationRun + 1) _)
  dsimp only [Machine.violationSymbol]
  split
  · exact counted.trans (portGoesDown p _)
  · exact counted

theorem heard (p : Port) (s : State) : Untouched s (heard p s) := by
  unfold Safety.heard
  cases (s.links.get p).framer with
  | inFrame bytes => exact (links _ s).trans (report _ _ le_rfl)
  | between => exact links _ s
  | discard => exact links _ s

theorem alignSymbol (p : Port) (sym : Symbol) (s : State) : Untouched s (alignSymbol p sym s) := by
  have counted : Untouched s (if Config.alignSymbols ≤ (s.links.get p).alignRun + 1 then Machine.portGoesUp p s
      else Machine.setAlignRun p ((s.links.get p).alignRun + 1) s) := by
    split
    · exact portGoesUp p s
    · exact setAlignRun p _ s
  cases sym with
  | violation => exact setAlignRun p 0 s
  | _ => exact counted

theorem receiveErrorEvent (p : Port) (e : RxEvent) (s : State) : Untouched s (receiveErrorEvent p e s) := by
  have framed : ∀ f n k, Untouched s (Machine.takeRxError p k (Machine.setFramer p f (Machine.setViolationRun p n s))) :=
    fun f n k => ((setViolationRun p n s).trans (setFramer p f _)).trans (takeRxError p k _)
  unfold Machine.receiveErrorEvent
  split
  · exact refl s
  · cases e with
    | crc => exact framed _ _ _
    | misdirected => exact framed _ _ _
    | oversize => exact framed _ _ _
    | truncated c => cases c <;> exact framed _ _ _
    | violation c =>
      cases c with
      | violation =>
        dsimp only
        split
        · exact refl s
        · exact violationSymbol p s
      | data =>
        dsimp only
        split
        · exact framed _ _ _
        · exact refl s
      | eof =>
        dsimp only
        split
        · exact (setViolationRun p 0 s).trans (takeRxError p _ _)
        · exact refl s

/-! The notice channel, the bank check and the transmitters. -/

theorem takeChoice (src : Source) (s : State) : Untouched s (takeChoice src s) := report _ s le_rfl

theorem takeExpiry (s : State) : Untouched s (takeExpiry s) := by
  dsimp only [Machine.takeExpiry]
  split <;> exact report _ s le_rfl

theorem completeCheck (k : BankCheck) (s : State) : Untouched s (completeCheck k s) := by
  dsimp only [Machine.completeCheck]
  split <;> exact (route _ s).trans (reply _ _ _ _ _)

theorem grantUTurn (s : State) : Untouched s (grantUTurn s) := by
  have relayed : ∀ f rest, s.relay.upQueue = f :: rest → Untouched s (grantUpRelay f rest s) := fun f rest h =>
    relay _ s rfl le_rfl (by simp [h]) le_rfl
  have tallied : ∀ f rest, s.report.tallyQueue = f :: rest → Untouched s (grantTally f rest s) := fun f rest h =>
    (report { s.report with tallyQueue := rest } s (by simp [h])).trans (relay _ _ rfl le_rfl le_rfl le_rfl)
  unfold Machine.grantUTurn
  split
  · exact refl s
  · exact relayed _ _ ‹_›
  · exact tallied _ _ ‹_›
  · split
    · exact relayed _ _ ‹_›
    · exact tallied _ _ ‹_›

theorem grantU (s : State) : Untouched s (grantU s) := by
  unfold Machine.grantU
  split
  · exact (request _ s).trans (relay _ _ rfl le_rfl le_rfl le_rfl)
  · split
    · exact (report { s.report with channel := { s.report.channel with slot := none, sending := true } } s le_rfl).trans
        (relay _ _ rfl le_rfl le_rfl le_rfl)
    · exact grantUTurn s

theorem grantD (s : State) : Untouched s (grantD s) := by
  have relayed : ∀ f rest, s.relay.downQueue = f :: rest → Untouched s (grantDownRelay f rest s) := fun f rest h =>
    relay _ s rfl (by simp [h]) le_rfl le_rfl
  have handed : ∀ f rest, s.relay.handoffQueue = f :: rest → Untouched s (grantHandoff f rest s) := fun f rest h =>
    relay _ s rfl le_rfl le_rfl (by simp [h])
  unfold Machine.grantD
  split
  · exact refl s
  · exact relayed _ _ ‹_›
  · exact handed _ _ ‹_›
  · split
    · exact relayed _ _ ‹_›
    · exact handed _ _ ‹_›

theorem startAckTimer (s : State) : Untouched s (startAckTimer s) := by
  unfold Machine.startAckTimer
  split
  · exact report _ s le_rfl
  · exact refl s

theorem completeSending (p : Port) (s : State) : Untouched s (completeSending p s) := by
  unfold Machine.completeSending
  split
  · split
    · exact (relay { s.relay with txU := .idle } s rfl le_rfl le_rfl le_rfl).trans (startAckTimer _)
    · exact relay _ s rfl le_rfl le_rfl le_rfl
    · exact refl s
  · split
    · exact relay _ s rfl le_rfl le_rfl le_rfl
    · exact refl s

theorem tickAck (s : State) : Untouched s (tickAck s) := by
  unfold Machine.tickAck
  split
  · exact refl s
  · split
    · exact takeExpiry s
    · exact report _ s le_rfl

/-! The owning rules that change neither the mode, the outlets nor the configuration. -/

theorem readObjectRule (num : Byte) (args : List Byte) (s : State) : Untouched s (readObjectRule num args s) := by
  unfold Machine.readObjectRule
  split
  · split
    · dsimp only
      split
      · exact (reply _ _ _ _ s).trans (links _ _)
      · exact reply _ _ _ _ s
    · exact reply _ _ _ _ s
  · exact reply _ _ _ _ s

theorem readCountersRule (num : Byte) (args : List Byte) (s : State) : Untouched s (readCountersRule num args s) := by
  dsimp only [Machine.readCountersRule]
  split
  · split
    · split
      · exact (reply _ _ _ _ s).trans (report _ _ le_rfl)
      · exact reply _ _ _ _ s
    · exact reply _ _ _ _ s
  · exact reply _ _ _ _ s

theorem openPlanRule (num : Byte) (args : List Byte) (s : State) : Untouched s (openPlanRule num args s) := by
  dsimp only [Machine.openPlanRule]
  split
  · split
    · exact reply _ _ _ _ s
    · split
      · exact reply _ _ _ _ s
      · split
        · exact reply _ _ _ _ s
        · split
          · exact reply _ _ _ _ s
          · exact (route _ s).trans (reply _ _ _ _ _)
  · exact reply _ _ _ _ s

theorem writeSegmentRule (num : Byte) (args : List Byte) (s : State) : Untouched s (writeSegmentRule num args s) := by
  dsimp only [Machine.writeSegmentRule]
  split
  · split
    · exact reply _ _ _ _ s
    · split
      · split
        · exact reply _ _ _ _ s
        · split
          · exact reply _ _ _ _ s
          · exact (route _ s).trans (reply _ _ _ _ _)
      · exact reply _ _ _ _ s
  · exact reply _ _ _ _ s

theorem commitPlanRule (num : Byte) (args : List Byte) (s : State) : Untouched s (commitPlanRule num args s) := by
  dsimp only [Machine.commitPlanRule]
  split
  · split
    · exact reply _ _ _ _ s
    · split
      · exact route _ s
      · exact reply _ _ _ _ s
  · exact reply _ _ _ _ s

theorem dropPlanRule (num : Byte) (args : List Byte) (s : State) : Untouched s (dropPlanRule num args s) := by
  dsimp only [Machine.dropPlanRule]
  split
  · split
    · exact reply _ _ _ _ s
    · split
      · exact reply _ _ _ _ s
      · exact (route _ s).trans (reply _ _ _ _ _)
  · exact reply _ _ _ _ s

theorem ackNoticeRule (num : Byte) (args : List Byte) (s : State) : Untouched s (ackNoticeRule num args s) := by
  dsimp only [Machine.ackNoticeRule]
  split
  · split
    · split
      · exact (report { s.report with channel := idleChannel s.report.channel } s le_rfl).trans (reply _ _ _ _ _)
      · exact reply _ _ _ _ s
    · exact reply _ _ _ _ s
  · exact reply _ _ _ _ s

theorem setNoticeMaskRule (num : Byte) (args : List Byte) (s : State) : Untouched s (setNoticeMaskRule num args s) := by
  dsimp only [Machine.setNoticeMaskRule]
  split
  · rename_i m1 m0
    exact (report { s.report with sources := setMasks (of16 m1 m0) s.report.sources } s le_rfl).trans (reply _ _ _ _ _)
  · exact reply _ _ _ _ s

/-- A removal touches the tracking queue and the stall watch only (R22). -/
theorem removeRecord (p : ItemRecord → Bool) (r : ItemRecord) (o : OutcomeKind) (x : Pos) (s : State) :
    Untouched (setTracking (s.tracking.eraseP p) s) (removeRecord p r o x s) := by
  dsimp only [Machine.removeRecord]
  split
  · exact (bump _ _).trans (offerTally _ _)
  · exact bump _ _

/-- The ABANDONED removals of a flush touch tallies and counters only (R26). -/
theorem abandonAll (x : Pos) (q : List ItemRecord) (s : State) : Untouched s (q.foldl (abandon x) s) := by
  induction q generalizing s with
  | nil => exact refl s
  | cons r q ih => exact ((bump _ s).trans (offerTally _ _)).trans (ih _)

/-- The out-of-service relay of an ITEM (R10, R11). -/
theorem outOfService (i : ItemFields) (s : State) : Untouched s (outOfService i s) := by
  unfold Machine.outOfService
  split
  · exact (offerTally _ s).trans (bump _ _)
  · split
    · exact pushHandoff _ s ‹_›
    · exact ((offerTally _ s).trans (occur _ _)).trans (bump _ _)

end Untouched

end Sys2Proof.Machine
end

section
/-! PROOFS. The flush of the tracking queue as one state change (R26), and the mode changes that flush it (R107, R109). -/

namespace Sys2Proof.Machine

open Sys2Proof.Safety

/-! ## Tallies of records -/

theorem lengthOf_eq (r : ItemRecord) : measuredLength r = lengthOf r := by
  unfold measuredLength lengthOf
  cases r.stage <;> rfl

theorem passByte_eq (r : ItemRecord) : BitVec.ofNat 8 (reasonByte (passReason r)) = passByte r := by
  unfold passReason passByte
  cases r.stage with
  | boundThrough p l why => cases why <;> rfl
  | _ => rfl

/-- The outlet byte of a tally whose outcome carries the outlet (R23). -/
theorem tallyOutletByte_carried {o : OutcomeKind} (h : carriesOutlet o = true) (r : ItemRecord) (x : Pos) :
    tallyOutletByte (recordTally o r x) = outletByte r := by
  unfold tallyOutletByte recordTally outletByte boundOutlet
  rw [h]
  cases r.stage <;> rfl

/-- The outlet byte of a tally whose outcome carries none (R23). -/
theorem tallyOutletByte_absent {o : OutcomeKind} (h : carriesOutlet o = false) (r : ItemRecord) (x : Pos) :
    tallyOutletByte (recordTally o r x) = 0xFF := by
  unfold tallyOutletByte recordTally
  rw [h]
  rfl

/-! ## The ABANDONED removals of a flush -/

theorem abandon_eq (x : Pos) (s : State) (r : ItemRecord) :
    abandon x s r = tallied (abandonedTally s.relay.address x r) (counted 6 s) := by
  rw [abandon, offerTally_eq, tallyOutletByte_carried rfl]
  change tallied (tally _ 7 r.tag r.dest _ (BitVec.ofNat 8 (reasonByte (passReason r))) x (measuredLength r)) _ = _
  rw [passByte_eq, lengthOf_eq]
  rfl

/-- Counter 6 raised by the records abandoned and counter 30 by the tallies lost. -/
def flushCounters (n lost : Nat) (v : Vector (BitVec 32) 33) : Vector (BitVec 32) 33 :=
  (v.set 6 (v[6] + BitVec.ofNat 32 n)).set 30 (v[30] + BitVec.ofNat 32 lost)

theorem flushCounters_add (n m lost more : Nat) (v : Vector (BitVec 32) 33) :
    flushCounters m more (flushCounters n lost v) = flushCounters (n + m) (lost + more) v := by
  ext i hi : 1
  simp only [flushCounters, Vector.getElem_set]
  by_cases h6 : 6 = i
  · subst h6
    simp [BitVec.ofNat_add, BitVec.add_assoc]
  · by_cases h30 : 30 = i
    · subst h30
      simp [BitVec.ofNat_add, BitVec.add_assoc]
    · simp [h6, h30]

theorem flushCounters_one_zero (v : Vector (BitVec 32) 33) : flushCounters 1 0 v = v.set 6 (v[6] + 1) := by
  ext i hi : 1
  simp only [flushCounters, Vector.getElem_set]
  by_cases h30 : 30 = i
  · subst h30
    simp
  · simp [h30]

theorem flushCounters_one_one (v : Vector (BitVec 32) 33) :
    flushCounters 1 1 v = (v.set 6 (v[6] + 1)).set 30 ((v.set 6 (v[6] + 1))[30] + 1) := by
  simp [flushCounters]

/-- Source 5 set pending for the tallies lost, where any was lost (R118, R120). -/
def lostSources (lost : Nat) (v : Vector SourceState 10) : Vector SourceState 10 :=
  if lost = 0 then v
  else v.set 5 { v[5] with pending := true, count := BitVec.ofNat 8 (min 255 (v[5].count.toNat + lost)) }

theorem lostSources_add (lost more : Nat) (v : Vector SourceState 10) :
    lostSources more (lostSources lost v) = lostSources (lost + more) v := by
  unfold lostSources
  by_cases hl : lost = 0
  · simp [hl]
  · by_cases hm : more = 0
    · simp [hm]
    · have hsum : lost + more ≠ 0 := by omega
      simp only [hl, hm, hsum, if_false, Vector.getElem_set_self, Vector.set_set, BitVec.toNat_ofNat]
      have : min 255 (min 255 (v[5].count.toNat + lost) % 2 ^ 8 + more) = min 255 (v[5].count.toNat + (lost + more)) := by omega
      rw [this]

/-- The report unit after the ABANDONED removals of the records of `q` at the position `x` (R26, R117, R118). -/
def abandoned (x : Pos) (q : List ItemRecord) (s : State) : ReportUnit :=
  let lost := q.length - (16 - s.report.tallyQueue.length)
  { s.report with
    tallyQueue := s.report.tallyQueue ++
      (q.mapIdx (fun i r => abandonedTally s.relay.address x r (s.report.tallySeq + BitVec.ofNat 8 i))).take
        (16 - s.report.tallyQueue.length)
    tallySeq := s.report.tallySeq + BitVec.ofNat 8 q.length
    counters := flushCounters q.length lost s.report.counters
    sources := lostSources lost s.report.sources }

theorem flushed_eq (s : State) : flushed s = abandoned s.position.pos s.tracking s := rfl

theorem abandoned_nil (x : Pos) (s : State) : abandoned x [] s = s.report := by
  rcases s with ⟨_, _, _, _, _, _, _, _, _, _, _, ⟨tq, ts, so, lp, rp, ch, co⟩, _⟩
  simp [abandoned, flushCounters, lostSources]

/-- The sequence numbers of a flush follow on from the first (R118). -/
theorem sequence_succ (seq : Byte) (n : Nat) : seq + 1#8 + BitVec.ofNat 8 n = seq + BitVec.ofNat 8 (n + 1) := by
  rw [Nat.add_comm, BitVec.ofNat_add, BitVec.add_assoc]

theorem abandoned_cons (x : Pos) (r : ItemRecord) (q : List ItemRecord) (s : State) :
    abandoned x (r :: q) s = abandoned x q (tallied (abandonedTally s.relay.address x r) (counted 6 s)) := by
  have frames : ∀ seq : Byte,
      (r :: q).mapIdx (fun i y => abandonedTally s.relay.address x y (seq + BitVec.ofNat 8 i)) =
        abandonedTally s.relay.address x r seq ::
          q.mapIdx (fun i y => abandonedTally s.relay.address x y (seq + 1 + BitVec.ofNat 8 i)) := by
    intro seq
    simp [List.mapIdx_cons, sequence_succ]
  by_cases room : s.report.tallyQueue.length < 16
  · obtain ⟨free, hfree⟩ : ∃ free, 16 - s.report.tallyQueue.length = free + 1 := ⟨15 - s.report.tallyQueue.length, by omega⟩
    have hfree' : 16 - (s.report.tallyQueue.length + 1) = free := by omega
    have ht : tallied (abandonedTally s.relay.address x r) (counted 6 s) =
        { s with report := { s.report with
          tallyQueue := s.report.tallyQueue ++ [abandonedTally s.relay.address x r s.report.tallySeq]
          tallySeq := s.report.tallySeq + 1
          counters := flushCounters 1 0 s.report.counters } } := by
      rw [flushCounters_one_zero, tallied, if_pos (by simpa [counted, countedBy] using room)]
      rfl
    rw [ht]
    simp only [abandoned, frames, hfree, hfree', List.length_append, List.length_cons, List.length_nil, List.take_succ_cons,
      Nat.zero_add, flushCounters_add, Nat.add_sub_add_right]
    simp [sequence_succ, Nat.add_comm]
  · have hfree : 16 - s.report.tallyQueue.length = 0 := by omega
    have ht : tallied (abandonedTally s.relay.address x r) (counted 6 s) =
        { s with report := { s.report with
          tallySeq := s.report.tallySeq + 1
          counters := flushCounters 1 1 s.report.counters
          sources := lostSources 1 s.report.sources } } := by
      rw [flushCounters_one_one, tallied, if_neg (by simpa [counted, countedBy] using room)]
      rfl
    rw [ht]
    simp only [abandoned, hfree, List.take_zero, List.length_cons, flushCounters_add, lostSources_add, Nat.sub_zero]
    simp [sequence_succ, Nat.add_comm]

/-- A tally offered changes the report unit only. -/
theorem tallied_withReport (f : Byte → Frame) (s : State) (r : ReportUnit) :
    { tallied f s with report := r } = { s with report := r } := by
  unfold tallied
  split <;> rfl

theorem foldl_abandon (x : Pos) (q : List ItemRecord) (s : State) :
    q.foldl (abandon x) s = { s with report := abandoned x q s } := by
  induction q generalizing s with
  | nil => rw [abandoned_nil]; rfl
  | cons r q ih =>
    rw [List.foldl_cons, ih, abandoned_cons, abandon_eq]
    exact tallied_withReport _ _ _

/-- A flush: the queue is empty, the watch idle, every record abandoned at the position (R26, R71). -/
theorem flush_eq (s : State) :
    flush s = { s with tracking := [], position := { s.position with watch := none }, report := flushed s } := by
  rw [flush, foldl_abandon, flushed_eq, setTracking, syncWatch]
  simp [watchActive]

/-! ## Modes entered -/

/-- In TRACKING a fault takes the station out (R109). -/
theorem takeFault_eq (c : Cause) (s : State) (hm : s.control.mode = .tracking) : takeFault c s = trackLost c s := by
  rw [takeFault, if_pos hm]
  dsimp only
  rw [flush_eq, occur_eq]
  simp [enterMode, clearSchedules, refreshOutputs, syncWatch, watchActive, outputDriven, trackLost, sourceIndex]
  rfl

@[simp] theorem trackLost_resetHeld (c : Cause) (s : State) : (trackLost c s).resetHeld = s.resetHeld := rfl
@[simp] theorem trackLost_control (c : Cause) (s : State) : (trackLost c s).control = ⟨.trackLost, c, true⟩ := rfl
@[simp] theorem trackLost_position (c : Cause) (s : State) :
    (trackLost c s).position = { s.position with watch := none } := rfl
@[simp] theorem trackLost_sensor (c : Cause) (s : State) : (trackLost c s).sensor = s.sensor := rfl
@[simp] theorem trackLost_tracking (c : Cause) (s : State) : (trackLost c s).tracking = [] := rfl
@[simp] theorem trackLost_outlet (c : Cause) (s : State) (k : OutletId) :
    (trackLost c s).outlets.get k = { s.outlets.get k with schedule := [], output := false } :=
  PerOutlet.get_ofFn _ k

/-- STOP_TRACKING executed (R107). -/
theorem stopEffect_eq (s : State) : stopEffect s = stopped s := by
  rw [stopEffect, flush_eq, enterMode, refreshOutputs_eq]
  simp [clearSchedules, syncWatch, watchActive, stopped]

/-- A warm reset (R114). -/
theorem restartEffect_eq (s : State) : restartEffect s = restarted s := by
  simp [restartEffect, enterMode, refreshOutputs, syncWatch, watchActive, outputDriven, restarted, clearSchedules, endTestFires,
    PerOutlet.ofFn, PerOutlet.get, Bank.cleared, Channel.cold]

/-- RECOVER executed (R111). -/
theorem recoverEffect_eq (s : State) :
    recoverEffect s =
      drive { s with control := ⟨.ready, s.control.cause, false⟩, position := { s.position with watch := none } } := by
  rw [recoverEffect, enterMode, refreshOutputs_eq]
  simp [syncWatch, watchActive]

end Sys2Proof.Machine
end

section
/-! PROOFS. The induction over the dispatch: what each event must keep for every step to keep it. -/

namespace Sys2Proof.Machine

open Sys2Proof.Safety

theorem takeEdge_eq (e : EyeId) (b : Bool) (x : Pos) (s : State) : takeEdge e b x s = trackEdge e b x (turned e b x s) := by
  rw [takeEdge, accepted_eq]

theorem waits_of_edgeDue {e : EyeId} {b : Bool} {x : Pos} {s : State} (h : edgeDue s e b = some x) : Waits e b x s := by
  unfold edgeDue at h
  split at h
  · rename_i c hc
    split at h
    · rename_i hr
      obtain ⟨ripe, level⟩ := Bool.and_eq_true_iff.mp hr
      cases h
      simp [Waits, hc, ripe, beq_iff_eq.mp level]
    · cases h
  · cases h

/-- The notes of an ITEM are half as many as the bytes that hold them (Table 11-3). -/
theorem length_of_parseNotes : ∀ (l : List Byte) (notes : List Note), parseNotes l = some notes → 2 * notes.length = l.length
  | [], _, h => by cases h; rfl
  | [_], _, h => by cases h
  | _ :: _ :: rest, notes, h => by
    unfold parseNotes at h
    split at h
    · cases h
    · split at h
      · rename_i hn
        cases h
        have := length_of_parseNotes rest _ hn
        simp only [List.length_cons]
        omega
      · cases h

/-- An ITEM brings at most six notes (R178). -/
theorem trail_of_parseItem {payload : List Byte} {i : ItemFields} (h : parseItem payload = some i) : i.trail.length ≤ 6 := by
  unfold parseItem at h
  split at h
  · split at h
    · cases h
    · rename_i hk
      split at h
      · cases h
      · rename_i notes hn
        have := length_of_parseNotes _ _ hn
        dsimp only at h
        split at h
        · cases h
        · cases h
          simp only [Config.trailCapacity] at hk
          dsimp only
          omega
  · cases h

/-- What each event that touches the queue, the schedules, the mode, the eyes or the address must keep. -/
structure EventsKeep (P : State → Prop) : Prop where
  untouched : ∀ {s t}, Untouched s t → P s → P t
  cold : ∀ s, P (coldHeld s)
  released : ∀ s, s.resetHeld = true → P s → P (releaseReset s)
  encoder : ∀ pair s, P s → P (moveEncoder pair s)
  counted : ∀ fwd s, P s → P (takeCount fwd s)
  pinHeld : ∀ e high s, P s → P { s with sensor := setEye s.sensor e { eyeOf s.sensor e with pin := high } }
  pin : ∀ e high s, P s → P (changeEyePin e high s)
  lane : ∀ lanes s, P s → P { s with sensor := { s.sensor with lanes := lanes } }
  turned : ∀ e b x s, Waits e b x s → (s.control.mode = .tracking → e ≠ .entry) → P s → P (turned e b x s)
  entered : ∀ x s, s.control.mode = .tracking → Waits .entry true x s → P s → P (entryLeading x (Safety.turned .entry true x s))
  resolved : ∀ x s, s.control.mode = .tracking → Waits .entry false x s → P s → P (resolve x (Safety.turned .entry false x s))
  removed : ∀ p s, P s → P (setTracking (s.tracking.eraseP p) s)
  windowsEnded : ∀ o s, P s → P (endWindows o s)
  faulted : ∀ c s, s.control.mode = .tracking → P s → P (takeFault c s)
  watched : ∀ w s, s.position.watch.isSome = true → P s → P { s with position := { s.position with watch := some w } }
  fireEnded : ∀ o s, P s → P (refreshOutputs { s with outlets := s.outlets.set o { s.outlets.get o with testFire := none } })
  firesTicked : ∀ s, P s → P (tickFires s)
  fireStarted : ∀ o ms s, s.control.mode = .ready → 1 ≤ ms → ms ≤ 1000 → P s → P (startTestFire o ms s)
  adopted : ∀ i r s, s.control.mode = .tracking → i.trail.length ≤ 6 → adopter i s = some r → P s →
    P (setTracking (replaceFirst isOnEye (adoptedRecord i r) s.tracking) s)
  admitted : ∀ i s, s.control.mode = .tracking → i.trail.length ≤ 6 → s.tracking.length < 32 → P s →
    P (setTracking (s.tracking ++ [admittedRecord i s.position.pos]) s)
  addressed : ∀ a s, s.control.mode ≠ .transparent → a ≠ 0 → a.toNat ≤ 62 → P s → P { s with relay := { s.relay with address := a } }
  enlisted : ∀ a s, s.resetHeld = false → s.control.mode = .transparent → a ≠ 0 → a.toNat ≤ 62 → P s →
    P (enterMode .ready { s with relay := { s.relay with address := a } })
  configured : ∀ c s, s.control.mode ≠ .tracking → P s → P (applyConfig c s)
  started : ∀ s, s.control.mode = .ready → P s → P (startEffect s)
  stopped : ∀ s, s.control.mode = .tracking → P s → P (stopEffect s)
  recovered : ∀ s, s.control.mode = .trackLost → P s → P (recoverEffect s)
  restarted : ∀ s, s.control.mode ≠ .transparent → P s → P (restartEffect s)

namespace EventsKeep

variable {P : State → Prop} (k : EventsKeep P)
include k

/-! ## Edges, closes and counts -/

theorem removeRecord (p : ItemRecord → Bool) (r : ItemRecord) (o : OutcomeKind) (x : Pos) {s : State} (hs : P s) :
    P (removeRecord p r o x s) :=
  k.untouched (.removeRecord p r o x s) (k.removed p s hs)

theorem handOff (p : ItemRecord → Bool) (r : ItemRecord) (o : OutcomeKind) (x : Pos) {s : State} (hs : P s) :
    P (handOff p r o x s) := by
  unfold Machine.handOff
  split
  · exact k.removeRecord _ _ _ _ (k.untouched (.pushHandoff _ s ‹_›) hs)
  · exact k.removeRecord _ _ _ _ (k.untouched (.occur _ s) hs)

theorem exitLeading (x : Pos) {s : State} (hs : P s) : P (exitLeading x s) := by
  dsimp only [Machine.exitLeading]
  split
  · exact k.untouched (.bump _ s) hs
  · split
    · have raised := k.untouched (.occur .divertFault s) hs
      dsimp only [exitMissed]
      split
      · exact k.removeRecord _ _ _ _ raised
      · exact k.handOff _ _ _ _ raised
    · unfold exitPassed
      split
      · exact k.removeRecord _ _ _ _ hs
      · exact k.handOff _ _ _ _ hs

theorem confirmLeading (o : OutletId) (x : Pos) {s : State} (hs : P s) : P (confirmLeading o x s) := by
  unfold Machine.confirmLeading
  split
  · split
    · exact k.untouched (.bump _ _) (k.removeRecord _ _ _ _ hs)
    · exact k.untouched (.bump _ s) hs
  · exact hs

/-- An accepted edge that waits, taken (R75). -/
theorem takeEdge {e : EyeId} {b : Bool} {x : Pos} {s : State} (hw : Waits e b x s) (hs : P s) : P (takeEdge e b x s) := by
  rw [takeEdge_eq]
  unfold trackEdge
  split
  case isFalse h => exact k.turned e b x s hw (fun hm => absurd hm h) hs
  case isTrue h =>
    cases e with
    | entry =>
      cases b with
      | true => exact k.entered x s h hw hs
      | false => exact k.resolved x s h hw hs
    | exit =>
      have turned := k.turned .exit b x s hw (fun _ => by simp) hs
      cases b with
      | true => exact k.exitLeading x turned
      | false => exact turned
    | confirm o =>
      have turned := k.turned (.confirm o) b x s hw (fun _ => by simp) hs
      cases b with
      | true => exact k.confirmLeading o x turned
      | false => exact turned

theorem edgeCommand (e : EyeId) (b : Bool) {s : State} (hs : P s) : P (edgeCommand e b s) := by
  unfold Machine.edgeCommand
  split
  · exact k.takeEdge (waits_of_edgeDue ‹_›) hs
  · exact hs

theorem takeWaitingEdge (e : EyeId) {s : State} (hs : P s) : P (takeWaitingEdge e s) := by
  unfold Machine.takeWaitingEdge
  split
  · exact k.takeEdge (waits_of_edgeDue ‹_›) hs
  · split
    · exact k.takeEdge (waits_of_edgeDue ‹_›) hs
    · exact hs

theorem takeFault (c : Cause) {s : State} (hs : P s) : P (takeFault c s) := by
  by_cases h : s.control.mode = .tracking
  · exact k.faulted c s h hs
  · rw [Machine.takeFault, if_neg h]
    exact hs

theorem closeApproach (r : ItemRecord) {s : State} (hs : P s) : P (closeApproach r s) := k.removeRecord _ _ _ _ hs

theorem closeResolved (p : ItemRecord → Bool) (r : ItemRecord) {s : State} (hs : P s) : P (closeResolved p r s) := by
  dsimp only [Machine.closeResolved]
  split
  · exact k.removeRecord _ _ _ _ (k.untouched (.occur _ s) hs)
  · exact k.removeRecord _ _ _ _ hs

theorem takeDue (d : Due) {s : State} (hs : P s) : P (takeDue d s) := by
  cases d with
  | edge e => exact k.takeWaitingEdge e hs
  | approachClose r => exact k.closeApproach r hs
  | confirmClose r => exact k.closeResolved _ r hs
  | exitClose r => exact k.closeResolved _ r hs
  | windowEnd o => exact k.windowsEnded o s hs
  | blocked e => exact k.takeFault _ hs
  | reversal => exact k.takeFault _ hs

theorem settleFuel (n : Nat) {s : State} (hs : P s) : P (settleFuel n s) := by
  induction n generalizing s with
  | zero => exact hs
  | succ n ih =>
    unfold Machine.settleFuel
    split
    · exact hs
    · exact ih (k.takeDue _ hs)

/-- A count, or its encoder change alone while RESET is held. -/
theorem count (fwd : Bool) (pair : Bool × Bool) {s : State} (hs : P s) :
    P (if s.resetHeld then moveEncoder pair s else takeCount fwd (settle (moveEncoder pair s))) := by
  have moved := k.encoder pair s hs
  split
  · exact moved
  · exact k.counted fwd _ (k.settleFuel _ moved)

theorem eyePinChange (e : EyeId) (high : Bool) {s : State} (hs : P s) :
    P (if (eyeOf s.sensor e).pin = high then s
       else if s.resetHeld then { s with sensor := setEye s.sensor e { eyeOf s.sensor e with pin := high } }
       else changeEyePin e high (Machine.takeWaitingEdge e s)) := by
  split
  · exact hs
  · split
    · exact k.pinHeld e high s hs
    · exact k.pin e high _ (k.takeWaitingEdge e hs)

/-! ## ITEMs and requests -/

theorem takeItem (payload : List Byte) {s : State} (hs : P s) : P (takeItem payload s) := by
  unfold Machine.takeItem
  split
  · exact hs
  · rename_i i hi
    have trail := trail_of_parseItem hi
    split
    · rename_i hm
      unfold trackItem
      split
      · exact k.adopted i _ s hm trail ‹_› hs
      · split
        · exact k.admitted i s hm trail ‹_› hs
        · exact k.untouched (((Untouched.offerTally _ s).trans (.occur _ _)).trans (.bump _ _)) hs
    · exact k.untouched (.outOfService i s) hs

theorem writeConfigRule (num : Byte) (args : List Byte) {s : State} (hs : P s) : P (writeConfigRule num args s) := by
  have refused : ∀ st data, P (reply num (requestByte .writeConfig) st data s) := fun st data => k.untouched (.reply _ _ _ _ s) hs
  dsimp only [Machine.writeConfigRule]
  split
  · exact refused _ _
  · rename_i hm
    split
    · exact refused _ _
    · split
      · exact refused _ _
      · split
        · exact refused _ _
        · exact k.untouched (.reply _ _ _ _ _) (k.configured _ s (fun h => hm (by simp [h])) hs)

theorem startEffect_of_accepted {s : State} (h : startRefusal s = none) (hs : P s) : P (startEffect s) := by
  refine k.started s ?_ hs
  by_contra hm
  simp [startRefusal, hm] at h

theorem startTrackingRule (num : Byte) {s : State} (hs : P s) : P (startTrackingRule num s) := by
  unfold Machine.startTrackingRule
  split
  · exact k.untouched (.reply _ _ _ _ s) hs
  · exact k.untouched (.reply _ _ _ _ _) (k.startEffect_of_accepted ‹_› hs)

theorem stopTrackingRule (num : Byte) {s : State} (hs : P s) : P (stopTrackingRule num s) := by
  unfold Machine.stopTrackingRule
  split
  · exact k.untouched (.reply _ _ _ _ _) (k.stopped s ‹_› hs)
  · exact k.untouched (.replyMode _ _ s) hs

theorem recoverRule (num : Byte) {s : State} (hs : P s) : P (recoverRule num s) := by
  unfold Machine.recoverRule
  split
  · exact k.untouched (.reply _ _ _ _ _) (k.recovered s ‹_› hs)
  · exact k.untouched (.replyMode _ _ s) hs

theorem fireTestRule (num : Byte) (args : List Byte) {s : State} (hs : P s) : P (fireTestRule num args s) := by
  have refused : P (reply num (requestByte .fireTest) .badArg [] s) := k.untouched (.reply _ _ _ _ s) hs
  dsimp only [Machine.fireTestRule]
  split
  · exact k.untouched (.replyMode _ _ s) hs
  · rename_i hm
    split
    · split
      · exact refused
      · split
        · exact refused
        · rename_i hd
          simp only [Bool.or_eq_true, decide_eq_true_eq, not_or, Nat.not_lt] at hd
          obtain ⟨⟨-, shortest⟩, longest⟩ := hd
          split
          · exact k.untouched (.replyBusy _ _ s) hs
          · exact k.untouched (.reply _ _ _ _ _) (k.fireStarted _ _ s (not_not.mp hm) shortest longest hs)
    · exact refused

/-- The owning rule of each code, in an addressed mode (R165 test 6). -/
theorem owningRule (code : RequestCode) (num : Byte) (args : List Byte) {s : State} (hm : s.control.mode ≠ .transparent)
    (hs : P s) : P (owningRule code num args s) := by
  cases code with
  | readObject => exact k.untouched (.readObjectRule num args s) hs
  | writeConfig => exact k.writeConfigRule num args hs
  | readCounters => exact k.untouched (.readCountersRule num args s) hs
  | openPlan => exact k.untouched (.openPlanRule num args s) hs
  | writeSegment => exact k.untouched (.writeSegmentRule num args s) hs
  | commitPlan => exact k.untouched (.commitPlanRule num args s) hs
  | dropPlan => exact k.untouched (.dropPlanRule num args s) hs
  | startTracking => exact k.startTrackingRule num hs
  | stopTracking => exact k.stopTrackingRule num hs
  | recover => exact k.recoverRule num hs
  | restart => exact k.untouched (.reply _ _ _ _ _) (k.restarted s hm hs)
  | ackNotice => exact k.untouched (.ackNoticeRule num args s) hs
  | setNoticeMask => exact k.untouched (.setNoticeMaskRule num args s) hs
  | fireTest => exact k.fireTestRule num args hs

theorem answerRequest (num code : Byte) (args : List Byte) {s : State} (hm : s.control.mode ≠ .transparent) (hs : P s) :
    P (answerRequest num code args s) := by
  have executed : P (executeRequest num code args s) := by
    unfold executeRequest
    split
    · exact k.untouched (.reply _ _ _ _ s) hs
    · split
      · split
        · exact k.owningRule _ num args hm hs
        · exact k.untouched (.reply _ _ _ _ s) hs
      · exact k.owningRule _ num args hm hs
  unfold Machine.answerRequest
  split
  · split
    · exact k.untouched (.placeFrame _ s) hs
    · exact executed
  · exact executed

theorem takeAddressed (num code : Byte) (args : List Byte) {s : State} (hm : s.control.mode ≠ .transparent) (hs : P s) :
    P (takeAddressed num code args s) := by
  unfold Machine.takeAddressed
  split
  · exact hs
  · split
    · exact k.answerRequest num code args hm hs
    · split
      · exact hs
      · split
        · exact k.answerRequest num code args hm hs
        · exact k.untouched (.replyBusy _ _ s) hs

theorem takeBroadcast (payload : List Byte) {s : State} (hm : s.control.mode ≠ .transparent) (hs : P s) :
    P (takeBroadcast payload s) := by
  unfold Machine.takeBroadcast
  split
  · split
    · split
      · exact k.startEffect_of_accepted (Option.isNone_iff_eq_none.mp ‹_›) hs
      · exact hs
    · split
      · exact k.stopped s ‹_› hs
      · exact hs
    · exact k.restarted s hm hs
    · exact k.untouched (.bump _ s) hs
  · exact k.untouched (.bump _ s) hs

theorem takeRequest (f : Frame) {s : State} (hm : s.control.mode ≠ .transparent) (hs : P s) : P (takeRequest f s) := by
  unfold Machine.takeRequest
  split
  · unfold takeAddressedPayload
    split
    · exact k.takeAddressed _ _ _ hm hs
    · exact hs
  · split
    · exact k.takeBroadcast _ (by simpa using hm) (k.untouched (.offerDown _ s) hs)
    · exact k.untouched (.offerDown _ s) hs

/-- An ENUMERATE of 1 to 62 gives the station its address, and takes it out of TRANSPARENT (R103, R152). -/
theorem takeEnumerate (f : Frame) {s : State} (hr : s.resetHeld = false) (hs : P s) : P (takeEnumerate f s) := by
  dsimp only [Machine.takeEnumerate]
  split
  · exact k.untouched (.bump _ s) hs
  · split
    · exact k.untouched (.offerDown _ s) hs
    · rename_i h0 h63
      have hlt : f.addr.toNat < 63 := by
        have h64 : f.addr.toNat < 64 := by omega
        have : f.addr.toNat ≠ 63 := fun h => h63 (BitVec.eq_of_toNat_eq h)
        omega
      have hval : (f.addr.setWidth 6).toNat = f.addr.toNat := by
        rw [BitVec.toNat_setWidth]
        omega
      have hne : f.addr.setWidth 6 ≠ 0 := fun h => by
        rw [h] at hval
        exact h0 (Or.inl (BitVec.eq_of_toNat_eq hval.symm))
      have hle : (f.addr.setWidth 6).toNat ≤ 62 := by omega
      refine k.untouched (.offerDown _ _) ?_
      split
      · exact k.untouched (.request { s.request with cache := none } _) (k.enlisted _ s hr ‹_› hne hle hs)
      · exact k.untouched (.request { s.request with cache := none } _) (k.addressed _ s ‹_› hne hle hs)

/-! ## The ports -/

theorem frameArrival (p : Port) (f : Frame) {s : State} (hr : s.resetHeld = false) (hs : P s) : P (frameArrival p f s) := by
  have relayed : P (offerDown f s) := k.untouched (.offerDown f s) hs
  cases p with
  | d => exact k.untouched (.offerUp f s) hs
  | u =>
    change P (frameFromU f s)
    unfold frameFromU
    split
    · exact k.takeEnumerate f hr hs
    · split
      · exact relayed
      · split
        · exact k.takeRequest f ‹_› hs
        · split
          · exact k.takeItem _ hs
          · exact relayed

theorem receiveFrame (p : Port) (f : Frame) {s : State} (hs : P s) : P (receiveFrame p f s) := by
  by_cases h : Hears p s
  · have heard := k.untouched (.heard p s) hs
    rw [receiveFrame_eq p f s h]
    split
    · exact k.untouched (.takeRxError p _ _) heard
    · split
      · exact k.untouched (.takeRxError p _ _) heard
      · exact k.frameArrival p f ((heard_fields p s).1.trans h.1) heard
  · have deaf : (s.resetHeld || !(s.links.get p).up) = true := by
      cases hr : s.resetHeld <;> cases hu : (s.links.get p).up <;> simp_all [Hears]
    rw [Machine.receiveFrame, if_pos deaf]
    exact hs

theorem plainSymbol (p : Port) (sym : Symbol) {s : State} (hr : s.resetHeld = false) (hs : P s) : P (plainSymbol p sym s) := by
  have run := Untouched.setViolationRun p 0 s
  have framed : ∀ f, Untouched s (setFramer p f (setViolationRun p 0 s)) := fun f => run.trans (.setFramer p f _)
  have erred : ∀ e, Untouched s (takeRxError p e (setViolationRun p 0 s)) := fun e => run.trans (.takeRxError p e _)
  have both : ∀ e f, Untouched s (setFramer p f (takeRxError p e (setViolationRun p 0 s))) := fun e f =>
    (erred e).trans (.setFramer p f _)
  dsimp only [Machine.plainSymbol]
  split
  · exact k.untouched (both _ _) hs
  · exact k.untouched run hs
  · exact k.untouched (framed _) hs
  · exact k.untouched (erred _) hs
  · split
    · exact k.untouched (both _ _) hs
    · exact k.untouched (framed _) hs
  · exact k.untouched (both _ _) hs
  · exact k.untouched ((erred _).trans (.setFramer p _ _)) hs
  · split
    · exact k.untouched ((framed _).trans (.takeRxError p _ _)) hs
    · exact k.frameArrival p _ hr (k.untouched (framed _) hs)
  · exact k.untouched run hs
  · exact k.untouched (framed _) hs
  · exact k.untouched (framed _) hs
  · exact k.untouched (framed _) hs
  · exact k.untouched (run.trans (.violationSymbol p _)) hs

theorem receiveSymbol (p : Port) (sym : Symbol) {s : State} (hs : P s) : P (receiveSymbol p sym s) := by
  unfold Machine.receiveSymbol
  split
  · exact hs
  · rename_i hr
    split
    · split
      · exact k.untouched (.violationSymbol p s) hs
      · exact k.plainSymbol p _ (by simpa using hr) hs
    · exact k.untouched (.alignSymbol p sym s) hs

theorem portDown (p : Port) (cause : DownCause) {s t : State} (h : execPortDown p cause s = .next t) (hs : P s) : P t := by
  cases h
  split
  · exact hs
  · split
    · split
      · exact k.untouched (.portGoesDown p s) hs
      · exact k.untouched (.setAlignRun p 0 s) hs
    · split
      · exact k.untouched (.violationSymbol p s) hs
      · exact hs

/-! ## Ticks and the dispatch -/

theorem reportStall (n : Nat) {s : State} (hw : s.position.watch.isSome = true) (hs : P s) : P (reportStall n s) :=
  k.untouched (.occur _ _) (k.watched _ s hw hs)

theorem tick {s : State} (hs : P s) : P (tick s) := by
  have watched : P (tickWatch s) := by
    unfold tickWatch
    split
    · exact hs
    · rename_i w hw
      have active : s.position.watch.isSome = true := by simp [hw]
      split
      · exact k.reportStall _ active hs
      · exact k.watched _ s active hs
  exact k.firesTicked _ (k.untouched (.tickAck _) watched)

/-- A step of POWER_ON, RESET_ASSERTED or RESET_RELEASED. -/
theorem resets {c : Instr} {s t : State} (hc : c = .powerOn ∨ c = .resetAsserted ∨ c = .resetReleased)
    (h : exec c s = .next t) (hs : P s) : P t := by
  rcases hc with rfl | rfl | rfl <;> cases h
  · split
    · exact k.cold s
    · exact k.released _ rfl (k.cold s)
  · exact k.cold s
  · split
    · exact k.released s ‹_› hs
    · exact hs

/-- The closes, window ends and faults of the last count, each by its own command. -/
theorem dueEvents {c : Instr} {s t : State}
    (hc : c = .approachWindowClose ∨ c = .confirmWindowClose ∨ c = .exitWindowClose ∨ (∃ o, c = .firingWindowEnd o)
      ∨ c = .reversal ∨ ∃ e, c = .blockedLimitReached e)
    (h : exec c s = .next t) (hs : P s) : P t := by
  rcases hc with rfl | rfl | rfl | ⟨o, rfl⟩ | rfl | ⟨e, rfl⟩ <;> cases h <;> split
  · exact k.closeApproach _ hs
  · exact hs
  · exact k.closeResolved _ _ hs
  · exact hs
  · exact k.closeResolved _ _ hs
  · exact hs
  · exact k.windowsEnded o s hs
  · exact hs
  · exact k.takeFault _ hs
  · exact hs
  · exact k.takeFault _ hs
  · exact hs

/-- STALL, TEST_FIRE_END, BANK_CHECK_COMPLETION, ACK_TIMEOUT and NOTICE_CHOICE. -/
theorem timedEvents {c : Instr} {s t : State}
    (hc : c = .stall ∨ (∃ o, c = .testFireEnd o) ∨ c = .bankCheckCompletion ∨ c = .ackTimeout ∨ c = .noticeChoice)
    (h : exec c s = .next t) (hs : P s) : P t := by
  rcases hc with rfl | ⟨o, rfl⟩ | rfl | rfl | rfl <;> cases h <;> split
  · split
    · exact hs
    · exact k.reportStall _ (Option.isSome_iff_exists.mpr ⟨_, ‹_›⟩) hs
  · exact hs
  · exact k.fireEnded o s hs
  · exact hs
  · exact k.untouched (.completeCheck _ s) hs
  · exact hs
  · exact k.untouched (.takeExpiry s) hs
  · exact hs
  · split
    · exact k.untouched (.takeChoice _ s) hs
    · exact hs
  · exact hs

/-- A transmit grant takes one frame, where there is one to take (R158). -/
theorem grants {c : Instr} {s t : State} (hc : c = .uTransmitGrant ∨ c = .dTransmitGrant) (h : exec c s = .next t) (hs : P s) :
    P t := by
  rcases hc with rfl | rfl <;> cases h <;> split
  · exact k.untouched (.grantU s) hs
  · exact hs
  · exact k.untouched (.grantD s) hs
  · exact hs

/-- Every command keeps what its event keeps. -/
theorem exec {c : Instr} {s t : State} (h : exec c s = .next t) (hs : P s) : P t := by
  cases hq : requestOf c with
  | some q =>
    obtain ⟨addr, num, code, args⟩ := q
    rw [exec_requestOf s hq] at h
    cases h
    exact k.receiveFrame _ _ hs
  | none =>
    cases c with
    | powerOn => exact k.resets (by simp) h hs
    | resetAsserted => exact k.resets (by simp) h hs
    | resetReleased => exact k.resets (by simp) h hs
    | forwardCount => cases h; exact k.count _ _ hs
    | backwardCount => cases h; exact k.count _ _ hs
    | encoderDoubleChange => cases h; exact k.encoder _ s hs
    | reversal => exact k.dueEvents (by simp) h hs
    | blockedLimitReached e => exact k.dueEvents (by simp) h hs
    | approachWindowClose => exact k.dueEvents (by simp) h hs
    | confirmWindowClose => exact k.dueEvents (by simp) h hs
    | exitWindowClose => exact k.dueEvents (by simp) h hs
    | firingWindowEnd o => exact k.dueEvents (by simp) h hs
    | eyePinChange e high => cases h; exact k.eyePinChange e high hs
    | laneFullChange o high => cases h; exact k.lane _ s hs
    | entryLeadingEdge => cases h; exact k.edgeCommand _ _ hs
    | entryTrailingEdge => cases h; exact k.edgeCommand _ _ hs
    | confirmLeadingEdge o => cases h; exact k.edgeCommand _ _ hs
    | confirmTrailingEdge o => cases h; exact k.edgeCommand _ _ hs
    | exitLeadingEdge => cases h; exact k.edgeCommand _ _ hs
    | exitTrailingEdge => cases h; exact k.edgeCommand _ _ hs
    | stall => exact k.timedEvents (by simp) h hs
    | testFireEnd o => exact k.timedEvents (by simp) h hs
    | bankCheckCompletion => exact k.timedEvents (by simp) h hs
    | ackTimeout => exact k.timedEvents (by simp) h hs
    | noticeChoice => exact k.timedEvents (by simp) h hs
    | portUp p =>
      cases h
      split
      · exact hs
      · exact k.untouched (.portGoesUp p s) hs
    | portDown p cause => exact k.portDown p cause h hs
    | receiveError p e => cases h; exact k.untouched (.receiveErrorEvent p e s) hs
    | symbolReceived p sym => cases h; exact k.receiveSymbol p sym hs
    | item addr payload => cases h; exact k.receiveFrame _ _ hs
    | enumerate v payload => cases h; exact k.receiveFrame _ _ hs
    | downstreamRelay f => cases h; exact k.receiveFrame _ _ hs
    | upstreamRelay f => cases h; exact k.receiveFrame _ _ hs
    | uTransmitGrant => exact k.grants (by simp) h hs
    | dTransmitGrant => exact k.grants (by simp) h hs
    | sendingComplete p => cases h; exact k.untouched (.completeSending p s) hs
    | readRoute bank addr num args => cases bank <;> cases hq
    | _ => cases hq

/-- A step keeps what every event keeps. -/
theorem step {s t : State} (hs : P s) (h : step s = .next t) : P t := by
  unfold Machine.step at h
  split at h
  · cases h
    exact k.tick hs
  · exact k.exec h (k.untouched (.pending _ s) hs)

end EventsKeep

end Sys2Proof.Machine
end

section
/-! PROOFS. The lists of the part stay within their capacities (R4, R6, R45, R117, R155 to R157). -/

namespace Sys2Proof

theorem PerOutlet.get_set {α : Type} (v : PerOutlet α) (j k : OutletId) (x : α) :
    (v.set k x).get j = if j = k then x else v.get j := by
  split
  · subst_vars
    exact PerOutlet.get_set_self _ _ _
  · exact PerOutlet.get_set_of_ne _ ‹_› _

/-- A field that a replaced value shares with the value it replaces is unchanged for every outlet. -/
theorem PerOutlet.apply_get_set {α β : Type} (f : α → β) (v : PerOutlet α) (j k : OutletId) {x : α} (hx : f x = f (v.get k)) :
    f ((v.set k x).get j) = f (v.get j) := by
  rw [PerOutlet.get_set]
  split
  · subst_vars
    exact hx
  · rfl

end Sys2Proof

namespace Sys2Proof.Machine

open Sys2Proof.Safety

/-! ## Lengths of what the tracking and outlet units build -/

@[simp] theorem length_replaceFirst (p : ItemRecord → Bool) (x : ItemRecord) (q : List ItemRecord) :
    (replaceFirst p x q).length = q.length := by
  induction q with
  | nil => rfl
  | cons r q ih =>
    unfold replaceFirst
    split <;> simp [ih]

theorem mem_replaceFirst {p : ItemRecord → Bool} {x y : ItemRecord} {q : List ItemRecord} (h : y ∈ replaceFirst p x q) :
    y ∈ q ∨ y = x ∧ ∃ r ∈ q, p r = true := by
  induction q with
  | nil => cases h
  | cons r q ih =>
    unfold replaceFirst at h
    split at h
    · rename_i hr
      rcases List.mem_cons.mp h with rfl | h
      · exact .inr ⟨rfl, r, List.mem_cons_self, hr⟩
      · exact .inl (List.mem_cons_of_mem _ h)
    · rcases List.mem_cons.mp h with rfl | h
      · exact .inl List.mem_cons_self
      · rcases ih h with h | ⟨rfl, z, hz, hp⟩
        · exact .inl (List.mem_cons_of_mem _ h)
        · exact .inr ⟨rfl, z, List.mem_cons_of_mem _ hz, hp⟩

theorem perm_insertStray (r : ItemRecord) (q : List ItemRecord) : (insertStray r q).Perm (r :: q) := by
  have h := List.perm_middle (a := r) (l₁ := q.takeWhile (fun x => !isExpected x)) (l₂ := q.dropWhile (fun x => !isExpected x))
  rwa [List.takeWhile_append_dropWhile] at h

@[simp] theorem length_insertWindow (n : Window) (ws : List Window) : (insertWindow n ws).length = ws.length + 1 := by
  have h := congrArg List.length (List.takeWhile_append_dropWhile (p := fun w => !atOrPast w.opens n.opens) (l := ws))
  simp only [List.length_append] at h
  simp only [insertWindow, List.length_append, List.length_cons]
  omega

/-- A schedule of at most 8 windows that takes a window holds at most 8 (R45, R46). -/
theorem length_of_offerWindow {n : Window} {ws vs : List Window} (h : offerWindow n ws = some vs) (hw : ws.length ≤ 8) :
    vs.length ≤ 8 := by
  dsimp only [offerWindow] at h
  split at h
  · split at h
    · rename_i hroom
      cases h
      simp only [Config.scheduleCapacity] at hroom
      simpa using hroom
    · cases h
  · rename_i hmet
    cases h
    have split := List.length_eq_length_filter_add (l := ws) (windowsMeet n)
    have met : 0 < (ws.filter (windowsMeet n)).length := List.length_pos_iff.mpr (by simpa using hmet)
    rw [length_insertWindow]
    omega

theorem length_addNote {n : Note} {trail : List Note} {flags : Flags} (h : trail.length ≤ 6) :
    (addNote n trail flags).1.length ≤ 6 := by
  unfold addNote
  split
  · rename_i hroom
    simp only [Config.trailCapacity] at hroom
    simpa using hroom
  · exact h

theorem length_passRecord_trail {a : BitVec 6} {p : Pos} {len : BitVec 16} {why : Option Reason} {r : ItemRecord}
    (h : r.trail.length ≤ 6) : (passRecord a p len why r).trail.length ≤ 6 := by
  cases why with
  | none => exact h
  | some w => exact length_addNote h

/-! ## The entry leading edge and the resolution, by what they do to the queue -/

/-- What holds before an entry leading edge is judged and is kept by each LOST removal gives what the stray and the match bring
(R16, R17). -/
theorem matchEntry_keeps {P Q : State → Prop} {e : Pos} (lost : ∀ r x s, P s → P (removeRecord isExpected r .lost x s))
    (stray : ∀ s, P s → Q (createStray e s))
    (matched : ∀ r s, s.tracking.find? isExpected = some r → P s →
      Q (setTracking (replaceFirst isExpected { r with stage := .onEye e } s.tracking) s))
    (n : Nat) {s : State} (hs : P s) : Q (matchEntry n e s) := by
  induction n generalizing s with
  | zero => exact stray s hs
  | succ n ih =>
    unfold matchEntry
    split
    · exact stray s hs
    · dsimp only
      split
      · exact stray s hs
      · split
        · exact matched _ s ‹_› hs
        · exact ih (lost _ _ s hs)

/-- A resolution finds no record, passes the one ON_EYE, or binds it to an outlet whose schedule takes its window (R27 to R47). -/
theorem resolve_cases (t : Pos) (s : State) :
    (s.tracking.find? isOnEye = none ∧ resolve t s = s)
    ∨ (∃ r p len why, s.tracking.find? isOnEye = some r ∧
        Untouched (resolveTo (passRecord s.relay.address p len why r) s) (resolve t s))
    ∨ ∃ r p len k w ws, s.tracking.find? isOnEye = some r ∧ offerWindow w (s.outlets.get k).schedule = some ws ∧
        resolve t s = refreshOutputs (setSchedule k ws (resolveTo { r with stage := .boundOut p len k w } s)) := by
  unfold resolve
  split
  · exact .inl ⟨‹_›, rfl⟩
  · rename_i r hr
    right
    split
    · rename_i p hp
      dsimp only
      split
      · exact .inl ⟨r, p, _, _, hr, .refl _⟩
      · dsimp only [bindOutlet]
        split
        · exact .inl ⟨r, p, _, _, hr, .refl _⟩
        · split
          · exact .inl ⟨r, p, _, _, hr, .occur _ _⟩
          · exact .inr ⟨r, p, _, _, _, _, hr, ‹_›, rfl⟩
    · rename_i hstage
      have := List.find?_some hr
      cases hc : r.stage <;> simp_all [isOnEye]

end Sys2Proof.Machine

namespace Sys2Proof.Safety

open Sys2Proof.Machine

namespace WithinCapacity

variable {s : State}

theorem congr {t : State} (h : WithinCapacity s) (ht : t.tracking = s.tracking)
    (ho : ∀ k, (t.outlets.get k).schedule = (s.outlets.get k).schedule)
    (hq : t.report.tallyQueue = s.report.tallyQueue) (hr : t.relay = s.relay) : WithinCapacity t where
  tracking := by rw [ht]; exact h.tracking
  trails := by rw [ht]; exact h.trails
  schedules k := by rw [ho k]; exact h.schedules k
  tallies := by rw [hq]; exact h.tallies
  down := by rw [hr]; exact h.down
  up := by rw [hr]; exact h.up
  handoff := by rw [hr]; exact h.handoff

theorem untouched {t : State} (u : Untouched s t) (h : WithinCapacity s) : WithinCapacity t where
  tracking := by rw [u.tracking]; exact h.tracking
  trails := by rw [u.tracking]; exact h.trails
  schedules := by rw [u.outlets]; exact h.schedules
  tallies := u.tallies h.tallies
  down := u.down h.down
  up := u.up h.up
  handoff := u.handoff h.handoff

theorem queue (h : WithinCapacity s) {q : List ItemRecord} (hl : q.length ≤ 32) (ht : ∀ r ∈ q, r.trail.length ≤ 6) :
    WithinCapacity (setTracking q s) :=
  ⟨hl, ht, h.schedules, h.tallies, h.down, h.up, h.handoff⟩

theorem outlets (h : WithinCapacity s) {o : PerOutlet Outlet} (ho : ∀ k, (o.get k).schedule.length ≤ 8) :
    WithinCapacity { s with outlets := o } :=
  ⟨h.tracking, h.trails, ho, h.tallies, h.down, h.up, h.handoff⟩

theorem replace (h : WithinCapacity s) (p : ItemRecord → Bool) {x : ItemRecord} (hx : x.trail.length ≤ 6) :
    WithinCapacity (setTracking (replaceFirst p x s.tracking) s) :=
  h.queue (by simpa using h.tracking) (fun r hr => (mem_replaceFirst hr).elim (h.trails r) (fun e => e.1 ▸ hx))

theorem erase (h : WithinCapacity s) (p : ItemRecord → Bool) : WithinCapacity (setTracking (s.tracking.eraseP p) s) :=
  h.queue ((List.eraseP_sublist).length_le.trans h.tracking) (fun r hr => h.trails r (List.mem_of_mem_eraseP hr))

theorem find (h : WithinCapacity s) {p : ItemRecord → Bool} {r : ItemRecord} (hr : s.tracking.find? p = some r) :
    r.trail.length ≤ 6 := h.trails r (List.mem_of_find?_eq_some hr)

theorem refreshed (h : WithinCapacity s) : WithinCapacity (refreshOutputs s) :=
  h.outlets (fun k => by simpa using h.schedules k)

theorem cleared (h : WithinCapacity s) : WithinCapacity (clearSchedules s) := h.outlets (fun k => by simp)

theorem entersMode (h : WithinCapacity s) (m : Mode) : WithinCapacity (enterMode m s) :=
  h.congr rfl (fun k => by simp [enterMode]) rfl rfl

theorem flushed (h : WithinCapacity s) : WithinCapacity (flush s) :=
  (h.untouched (.abandonAll _ _ s)).queue (Nat.zero_le _) (by simp)

theorem scheduled (h : WithinCapacity s) (k : OutletId) {ws : List Window} (hw : ws.length ≤ 8) :
    WithinCapacity (setSchedule k ws s) :=
  h.outlets (fun j => by
    rw [PerOutlet.get_set]
    split
    · exact hw
    · exact h.schedules j)

theorem entered (h : WithinCapacity s) (x : Pos) : WithinCapacity (entryLeading x s) := by
  refine matchEntry_keeps (P := WithinCapacity) (Q := WithinCapacity) (fun r y s hs => (hs.erase _).untouched (.removeRecord _ r _ y s)) ?_
    (fun r s hr hs => hs.replace _ (x := { r with stage := .onEye x }) (show r.trail.length ≤ 6 from hs.find hr)) _ h
  intro s hs
  unfold createStray
  split
  · rename_i hroom
    have perm := perm_insertStray (strayRecord x) s.tracking
    refine (hs.queue ?_ ?_).untouched (.bump _ _)
    · rw [perm.length_eq]
      exact hroom
    · intro r hr
      rcases List.mem_cons.mp (perm.mem_iff.mp hr) with rfl | hr
      · exact Nat.zero_le _
      · exact hs.trails r hr
  · exact hs.untouched ((Untouched.bump _ s).trans (.occur _ _))

theorem resolved (h : WithinCapacity s) (t : Pos) : WithinCapacity (resolve t s) := by
  rcases resolve_cases t s with ⟨-, e⟩ | ⟨r, p, len, why, hr, u⟩ | ⟨r, p, len, k, w, ws, hr, hw, e⟩
  · rw [e]
    exact h
  · exact (h.replace isOnEye (length_passRecord_trail (h.find hr))).untouched u
  · rw [e]
    have bound := h.replace isOnEye (x := { r with stage := .boundOut p len k w }) (show r.trail.length ≤ 6 from h.find hr)
    exact (bound.scheduled k (length_of_offerWindow hw (h.schedules k))).refreshed

end WithinCapacity

/-- Every event keeps every list within its capacity. -/
theorem eventsKeep_withinCapacity : EventsKeep WithinCapacity where
  untouched u h := h.untouched u
  cold _ := ⟨Nat.zero_le _, fun _ hr => (List.not_mem_nil hr).elim, fun k => by simp [coldHeld, State.reset], Nat.zero_le _,
    Nat.zero_le _, Nat.zero_le _, Nat.zero_le _⟩
  released _ _ h := ⟨h.tracking, h.trails, h.schedules, h.tallies, h.down, h.up, h.handoff⟩
  encoder _ _ h := h.congr rfl (fun _ => rfl) rfl rfl
  counted _ _ h := h.congr rfl (fun _ => by simp [takeCount]) rfl rfl
  pinHeld _ _ _ h := h.congr rfl (fun _ => rfl) rfl rfl
  pin _ _ _ h := h.congr rfl (fun _ => rfl) rfl rfl
  lane _ _ h := h.congr rfl (fun _ => rfl) rfl rfl
  turned _ _ _ _ _ _ h := h.congr rfl (fun _ => rfl) rfl rfl
  entered x s _ _ h := by
    refine WithinCapacity.entered ?_ x
    exact h.congr rfl (fun _ => rfl) rfl rfl
  resolved x s _ _ h := by
    refine WithinCapacity.resolved ?_ x
    exact h.congr rfl (fun _ => rfl) rfl rfl
  removed p _ h := h.erase p
  windowsEnded k _ h := (h.scheduled k ((List.length_filter_le _ _).trans (h.schedules k))).refreshed
  faulted c s hm h := by
    rw [takeFault, if_pos hm]
    have caused : WithinCapacity { s with control := { s.control with cause := c } } := h.congr rfl (fun _ => rfl) rfl rfl
    refine WithinCapacity.untouched (.occur .trackLost _) ?_
    exact (caused.flushed.cleared.entersMode .trackLost).congr rfl (fun _ => rfl) rfl rfl
  watched _ _ _ h := h.congr rfl (fun _ => rfl) rfl rfl
  fireEnded o s h := h.congr rfl (fun j => by
    simpa using PerOutlet.apply_get_set (x := { s.outlets.get o with testFire := none }) Outlet.schedule s.outlets j o rfl) rfl rfl
  firesTicked _ h := h.congr rfl (fun j => by simp [tickFires]) rfl rfl
  fireStarted o ms s _ _ _ h :=
    h.congr rfl (fun j => by
      simpa [startTestFire] using
        PerOutlet.apply_get_set (x := { s.outlets.get o with testFire := some ms }) Outlet.schedule s.outlets j o rfl) rfl rfl
  adopted _ _ _ _ trail _ h := h.replace _ trail
  admitted i s _ trail room h := h.queue (by simpa using room) (fun r hr => by
    rcases List.mem_append.mp hr with hr | hr
    · exact h.trails r hr
    · rw [List.mem_singleton.mp hr]
      exact trail)
  addressed _ _ _ _ _ h := ⟨h.tracking, h.trails, h.schedules, h.tallies, h.down, h.up, h.handoff⟩
  enlisted a s _ _ _ _ h := by
    refine WithinCapacity.entersMode ?_ .ready
    exact ⟨h.tracking, h.trails, h.schedules, h.tallies, h.down, h.up, h.handoff⟩
  configured _ _ _ h := h.congr rfl (fun _ => rfl) rfl rfl
  started s _ h := by
    refine WithinCapacity.entersMode ?_ .tracking
    exact h.congr rfl (fun _ => by simp) rfl rfl
  stopped _ _ h := h.flushed.cleared.entersMode .ready
  recovered s _ h := by
    refine WithinCapacity.entersMode ?_ .ready
    exact h.congr rfl (fun _ => rfl) rfl rfl
  restarted s _ h := by
    refine WithinCapacity.entersMode ?_ .ready
    exact ⟨Nat.zero_le _, fun _ hr => (List.not_mem_nil hr).elim, fun j => by simp, Nat.zero_le _, h.down, h.up, h.handoff⟩

/-- Settles O5, by the induction over the dispatch: every event keeps every list within its capacity. -/
theorem stepKeepsCapacities : Obligations.StepKeepsCapacities := fun _ _ h hstep => eventsKeep_withinCapacity.step h hstep

end Sys2Proof.Safety
end

section
/-! PROOFS. What belongs to the station mode stays with it (R6, R45, R51, R64, R71, R103, R112, R149). -/

namespace Sys2Proof.Machine

open Sys2Proof.Safety

/-- The stall watch is active exactly under R71's conditions once it has been synchronised. -/
theorem syncWatch_isSome (s : State) :
    (syncWatch s).position.watch.isSome = true ↔ s.control.mode = .tracking ∧ s.tracking ≠ [] ∧ s.config.stallTime ≠ 0 := by
  have active : watchActive s = true ↔ s.control.mode = .tracking ∧ s.tracking ≠ [] ∧ s.config.stallTime ≠ 0 := by
    simp [watchActive, and_assoc]
  rw [← active]
  dsimp only [syncWatch]
  split <;> simp_all

/-- The outputs are as R51 gives them once they have been refreshed. -/
theorem output_refreshOutputs (s : State) (k : OutletId) :
    ((refreshOutputs s).outlets.get k).output = driven (refreshOutputs s) k := by
  rw [refreshOutputs_outlet, outputDriven_eq]
  simp only [driven, refreshOutputs_outlet, refreshOutputs_control, refreshOutputs_position]

end Sys2Proof.Machine

namespace Sys2Proof.Safety

open Sys2Proof.Machine

namespace ModeDiscipline

variable {s : State}

/-- A change that leaves the mode, the queue, the watch's activity and the address as they are. -/
theorem congr {t : State} (h : ModeDiscipline s) (hc : t.control = s.control) (ht : t.tracking = s.tracking)
    (hw : t.position.watch.isSome = s.position.watch.isSome) (hst : t.config.stallTime = s.config.stallTime)
    (ha : t.relay.address = s.relay.address)
    (hs : s.control.mode ≠ .tracking → ∀ k, (s.outlets.get k).schedule = [] → (t.outlets.get k).schedule = [])
    (hf : ∀ k n, (t.outlets.get k).testFire = some n →
      (s.outlets.get k).testFire = some n ∨ s.control.mode = .ready ∧ 1 ≤ n ∧ n ≤ 1000)
    (ho : ∀ k, (t.outlets.get k).output = driven t k) : ModeDiscipline t where
  noRecords := by rw [hc, ht]; exact h.noRecords
  noWindows := by rw [hc]; exact fun hm k => hs hm k (h.noWindows hm k)
  faultPin := by rw [hc]; exact h.faultPin
  testFires k n hn := by rw [hc]; exact (hf k n hn).elim (h.testFires k n) id
  watch := by rw [hw, hc, ht, hst]; exact h.watch
  outputs := ho
  unaddressed := by rw [ha, hc]; exact h.unaddressed
  addressRange := by rw [ha]; exact h.addressRange

/-- A change that leaves the outlets and the belt position as they are too. -/
theorem congr_outlets {t : State} (h : ModeDiscipline s) (hc : t.control = s.control) (ht : t.tracking = s.tracking)
    (hw : t.position.watch.isSome = s.position.watch.isSome) (hst : t.config.stallTime = s.config.stallTime)
    (ha : t.relay.address = s.relay.address) (ho : t.outlets = s.outlets) (hp : t.position.pos = s.position.pos) :
    ModeDiscipline t := by
  refine h.congr hc ht hw hst ha (fun _ k hk => ?_) (fun k n hn => .inl ?_) (fun k => ?_)
  · rw [ho]
    exact hk
  · rwa [ho] at hn
  · have := h.outputs k
    simpa only [driven, hc, ho, hp] using this

theorem untouched {t : State} (u : Untouched s t) (h : ModeDiscipline s) : ModeDiscipline t :=
  h.congr_outlets u.control u.tracking (by rw [u.position]) (by rw [u.config]) u.address u.outlets (by rw [u.position])

/-- A queue that is empty outside TRACKING. -/
theorem queue (h : ModeDiscipline s) {q : List ItemRecord} (hq : s.control.mode ≠ .tracking → q = []) :
    ModeDiscipline (setTracking q s) where
  noRecords := hq
  noWindows := h.noWindows
  faultPin := h.faultPin
  testFires := h.testFires
  watch := syncWatch_isSome { s with tracking := q }
  outputs := h.outputs
  unaddressed := h.unaddressed
  addressRange := h.addressRange

theorem erase (h : ModeDiscipline s) (p : ItemRecord → Bool) : ModeDiscipline (setTracking (s.tracking.eraseP p) s) :=
  h.queue (fun hm => by rw [h.noRecords hm]; rfl)

/-- A mode entered with what belongs to it. -/
theorem entersMode (m : Mode) (hr : m ≠ .tracking → s.tracking = []) (hs : m ≠ .tracking → ∀ k, (s.outlets.get k).schedule = [])
    (hp : s.control.fault = true ↔ m = .trackLost)
    (hf : ∀ k n, (s.outlets.get k).testFire = some n → m = .ready ∧ 1 ≤ n ∧ n ≤ 1000)
    (ha : s.relay.address = 0 ↔ m = .transparent) (hl : s.relay.address.toNat ≤ 62) : ModeDiscipline (enterMode m s) where
  noRecords := hr
  noWindows hm k := by simpa [enterMode] using hs hm k
  faultPin := hp
  testFires k n hn := hf k n (by simpa [enterMode] using hn)
  watch := syncWatch_isSome { s with control := { s.control with mode := m } }
  outputs := output_refreshOutputs _
  unaddressed := ha
  addressRange := hl

/-- No test fire runs outside READY (R64). -/
theorem noFire (h : ModeDiscipline s) (hm : s.control.mode ≠ .ready) (k : OutletId) : (s.outlets.get k).testFire = none := by
  rw [Option.eq_none_iff_forall_not_mem]
  exact fun n hn => hm (h.testFires k n hn).1

theorem inTracking (h : ModeDiscipline s) (hm : s.control.mode = .tracking) (q : List ItemRecord) :
    ModeDiscipline (setTracking q s) := h.queue (fun h => absurd hm h)

theorem entered (h : ModeDiscipline s) (hm : s.control.mode = .tracking) (x : Pos) : ModeDiscipline (entryLeading x s) := by
  refine matchEntry_keeps (P := fun s => ModeDiscipline s ∧ s.control.mode = .tracking) (Q := ModeDiscipline) ?_ ?_ ?_ _ ⟨h, hm⟩
  · exact fun r y s hs => ⟨(hs.1.inTracking hs.2 _).untouched (.removeRecord _ r _ y s), by simpa using hs.2⟩
  · intro s hs
    unfold createStray
    split
    · exact (hs.1.inTracking hs.2 _).untouched (.bump _ _)
    · exact hs.1.untouched ((Untouched.bump _ s).trans (.occur _ _))
  · exact fun r s _ hs => hs.1.inTracking hs.2 _

theorem resolved (h : ModeDiscipline s) (hm : s.control.mode = .tracking) (t : Pos) : ModeDiscipline (resolve t s) := by
  rcases resolve_cases t s with ⟨-, e⟩ | ⟨r, p, len, why, -, u⟩ | ⟨r, p, len, k, w, ws, -, -, e⟩
  · rw [e]
    exact h
  · exact (h.inTracking hm _).untouched u
  · rw [e]
    have bound := h.inTracking hm (replaceFirst isOnEye { r with stage := .boundOut p len k w } s.tracking)
    refine bound.congr rfl rfl rfl rfl rfl (fun h => absurd hm h) (fun j n hn => .inl ?_) (output_refreshOutputs _)
    have := PerOutlet.apply_get_set Outlet.testFire s.outlets j k (x := { s.outlets.get k with schedule := ws }) rfl
    simpa [setSchedule, this] using hn

theorem faulted (h : ModeDiscipline s) (hm : s.control.mode = .tracking) (c : Cause) : ModeDiscipline (takeFault c s) := by
  rw [takeFault_eq c s hm]
  have addressed : s.relay.address ≠ 0 := by simpa [hm] using h.unaddressed
  exact
    { noRecords := fun _ => rfl
      noWindows := fun _ k => by simp
      faultPin := by simp
      testFires := fun k n hn => by simp [h.noFire (by simp [hm]) k] at hn
      watch := by simp
      outputs := fun k => by simp [driven]
      unaddressed := iff_of_false addressed (by simp)
      addressRange := h.addressRange }

end ModeDiscipline

/-- Every event keeps what belongs to the mode. -/
theorem eventsKeep_modeDiscipline : EventsKeep ModeDiscipline where
  untouched u h := h.untouched u
  cold s :=
    { noRecords := fun _ => rfl
      noWindows := fun _ k => by simp [coldHeld, State.reset]
      faultPin := by simp [coldHeld, State.reset]
      testFires := fun k n hn => by simp [coldHeld, State.reset] at hn
      watch := by simp [coldHeld, State.reset]
      outputs := fun k => by simp [coldHeld, State.reset, driven]
      unaddressed := iff_of_true rfl rfl
      addressRange := Nat.zero_le _ }
  released _ _ h := h.congr_outlets rfl rfl rfl rfl rfl rfl rfl
  encoder _ _ h := h.congr_outlets rfl rfl rfl rfl rfl rfl rfl
  counted fwd s h := h.congr rfl rfl (by simp [takeCount, refreshOutputs]) rfl rfl (fun _ k hk => by simpa [takeCount] using hk)
    (fun k n hn => .inl (by simpa [takeCount] using hn)) (output_refreshOutputs _)
  pinHeld _ _ _ h := h.congr_outlets rfl rfl rfl rfl rfl rfl rfl
  pin _ _ _ h := h.congr_outlets rfl rfl rfl rfl rfl rfl rfl
  lane _ _ h := h.congr_outlets rfl rfl rfl rfl rfl rfl rfl
  turned _ _ _ _ _ _ h := h.congr_outlets rfl rfl rfl rfl rfl rfl rfl
  entered x s hm _ h := by
    refine ModeDiscipline.entered (s := turned .entry true x s) ?_ hm x
    exact h.congr_outlets rfl rfl rfl rfl rfl rfl rfl
  resolved x s hm _ h := by
    refine ModeDiscipline.resolved (s := turned .entry false x s) ?_ hm x
    exact h.congr_outlets rfl rfl rfl rfl rfl rfl rfl
  removed p _ h := h.erase p
  windowsEnded k s h := by
    refine h.congr rfl rfl rfl rfl rfl (fun _ j hj => ?_) (fun j n hn => .inl ?_) (output_refreshOutputs _)
    · simp only [endWindows, refreshOutputs_outlet, setSchedule, PerOutlet.get_set]
      split
      · subst_vars
        simp [hj]
      · exact hj
    · simp only [endWindows, refreshOutputs_outlet, setSchedule] at hn
      rwa [PerOutlet.apply_get_set Outlet.testFire s.outlets j k (by rfl)] at hn
  faulted c s hm h := h.faulted hm c
  watched w s hw h := h.congr_outlets rfl rfl (by simp [hw]) rfl rfl rfl rfl
  fireEnded o s h := by
    refine h.congr rfl rfl rfl rfl rfl (fun _ j hj => ?_) (fun j n hn => .inl ?_) (output_refreshOutputs _)
    · simpa only [refreshOutputs_outlet, PerOutlet.apply_get_set Outlet.schedule s.outlets j o
        (x := { s.outlets.get o with testFire := none }) rfl] using hj
    · simp only [refreshOutputs_outlet, PerOutlet.get_set] at hn
      split at hn
      · cases hn
      · exact hn
  firesTicked s h := by
    refine h.congr rfl rfl rfl rfl rfl (fun _ j hj => by simpa [tickFires] using hj) (fun j n hn => ?_) (output_refreshOutputs _)
    simp only [tickFires, refreshOutputs_outlet, PerOutlet.get_ofFn, tickFire] at hn
    split at hn
    · cases hn
    · rename_i m hm
      split at hn
      · cases hn
      · obtain ⟨mode, -, longest⟩ := h.testFires j m hm
        cases hn
        exact .inr ⟨mode, by omega, by omega⟩
  fireStarted o ms s hm h1 h2 h := by
    refine h.congr rfl rfl rfl rfl rfl (fun _ j hj => ?_) (fun j n hn => ?_) (output_refreshOutputs _)
    · simpa only [startTestFire, refreshOutputs_outlet, PerOutlet.apply_get_set Outlet.schedule s.outlets j o
        (x := { s.outlets.get o with testFire := some ms }) rfl] using hj
    · simp only [startTestFire, refreshOutputs_outlet, PerOutlet.get_set] at hn
      split at hn
      · cases hn
        exact .inr ⟨hm, h1, h2⟩
      · exact .inl hn
  adopted i r s hm _ _ h := h.inTracking hm _
  admitted i s hm _ _ h := h.inTracking hm _
  addressed a s hm hne hle h :=
    ⟨h.noRecords, h.noWindows, h.faultPin, h.testFires, h.watch, h.outputs, iff_of_false hne hm, hle⟩
  enlisted a s _ hm hne hle h := by
    have hother : s.control.mode ≠ .tracking := by simp [hm]
    refine ModeDiscipline.entersMode .ready (fun _ => h.noRecords hother) (fun _ => h.noWindows hother) ?_ ?_
      (iff_of_false hne (by simp)) hle
    · have := h.faultPin
      simpa [hm] using this
    · intro k n hn
      exact absurd (h.testFires k n hn).1 (by simp [hm])
  configured c s hm h :=
    ⟨h.noRecords, h.noWindows, h.faultPin, h.testFires,
      iff_of_false (fun hw => hm (h.watch.mp hw).1) (fun hw => hm hw.1), h.outputs, h.unaddressed, h.addressRange⟩
  started s hm h := by
    refine ModeDiscipline.entersMode .tracking (fun h => absurd rfl h) (fun h => absurd rfl h) ?_ ?_ ?_ h.addressRange
    · have := h.faultPin
      simpa [hm] using this
    · intro k n hn
      simp at hn
    · have := h.unaddressed
      simpa [hm] using this
  stopped s hm h := by
    rw [stopEffect, flush_eq]
    refine ModeDiscipline.entersMode .ready (fun _ => rfl) (fun _ k => by simp) ?_ ?_ ?_ h.addressRange
    · have := h.faultPin
      simpa [hm] using this
    · intro k n hn
      simp [h.noFire (by simp [hm]) k] at hn
    · have := h.unaddressed
      simpa [hm] using this
  recovered s hm h := by
    have hother : s.control.mode ≠ .tracking := by simp [hm]
    refine ModeDiscipline.entersMode .ready (fun _ => h.noRecords hother) (fun _ => h.noWindows hother) (by simp) ?_ ?_
      h.addressRange
    · intro k n hn
      exact absurd (h.testFires k n hn).1 (by simp [hm])
    · have := h.unaddressed
      simpa [hm] using this
  restarted s hm h := by
    refine ModeDiscipline.entersMode .ready (fun _ => rfl) (fun _ k => by simp) (by simp) ?_ ?_ h.addressRange
    · intro k n hn
      simp at hn
    · exact iff_of_false (fun h0 => hm (h.unaddressed.mp h0)) (by simp)

/-- Settles O6, by the induction over the dispatch: every event keeps what belongs to the mode. -/
theorem stepKeepsModeDiscipline : Obligations.StepKeepsModeDiscipline := fun _ _ h hstep => eventsKeep_modeDiscipline.step h hstep

end Sys2Proof.Safety
end

section
/-! PROOFS. The tracking queue stays in order, with at most one record ON_EYE (R5, R6, R74). -/

namespace Sys2Proof.Machine

open Sys2Proof.Safety

/-! ## Queues in order -/

/-- Whatever follows an EXPECTED or ON_EYE record is EXPECTED (R6). -/
def InOrder (q : List ItemRecord) : Prop :=
  q.Pairwise (fun r x => isExpected r = true ∨ isOnEye r = true → isExpected x = true)

theorem inOrder_iff (q : List ItemRecord) :
    InOrder q ↔ ∀ pre r post, q = pre ++ r :: post → isExpected r = true ∨ isOnEye r = true → ∀ x ∈ post, isExpected x = true := by
  constructor
  · rintro h pre r post rfl hr x hx
    have tail := (List.pairwise_append.mp h).2.1
    exact (List.pairwise_cons.mp tail).1 x hx hr
  · intro h
    induction q with
    | nil => exact List.Pairwise.nil
    | cons a q ih =>
      refine List.pairwise_cons.mpr ⟨fun x hx ha => h [] a q rfl ha x hx, ih fun pre r post hq => ?_⟩
      exact h (a :: pre) r post (by rw [hq]; rfl)

theorem not_isExpected_of_isOnEye {r : ItemRecord} (h : isOnEye r = true) : isExpected r = false := by
  unfold isOnEye at h
  unfold isExpected
  cases hs : r.stage <;> simp_all

theorem pairwise_replaceFirst {R : ItemRecord → ItemRecord → Prop} {p : ItemRecord → Bool} {x : ItemRecord} {q : List ItemRecord}
    (h : q.Pairwise R) (before : ∀ y ∈ q, ∀ r, p y = false → p r = true → R y r → R y x)
    (after : ∀ r z, p r = true → R r z → R x z) : (replaceFirst p x q).Pairwise R := by
  induction q with
  | nil => exact h
  | cons r q ih =>
    obtain ⟨head, tail⟩ := List.pairwise_cons.mp h
    unfold replaceFirst
    split
    · exact List.pairwise_cons.mpr ⟨fun z hz => after r z ‹_› (head z hz), tail⟩
    · rename_i hr
      refine List.pairwise_cons.mpr ⟨fun y hy => ?_, ih tail fun y hy => before y (List.mem_cons_of_mem _ hy)⟩
      rcases mem_replaceFirst hy with hy | ⟨rfl, z, hz, hp⟩
      · exact head y hy
      · exact before r List.mem_cons_self z (by simpa using hr) hp (head z hz)

namespace InOrder

variable {q : List ItemRecord}

theorem erase (h : InOrder q) (p : ItemRecord → Bool) : InOrder (q.eraseP p) := List.Pairwise.sublist List.eraseP_sublist h

/-- Whatever takes the place of the ON_EYE record, the order stays: before that record stand only resolved ones. -/
theorem replaceOnEye (h : InOrder q) (x : ItemRecord) : InOrder (replaceFirst isOnEye x q) := by
  refine pairwise_replaceFirst h (fun y _ r _ hr hyr hy => ?_) (fun r z hr hrz _ => hrz (.inr hr))
  have expected := hyr hy
  rw [not_isExpected_of_isOnEye hr] at expected
  cases expected

/-- With no record ON_EYE, the oldest EXPECTED record may change its state (R16). -/
theorem replaceExpected (h : InOrder q) (none : ∀ r ∈ q, isOnEye r = false) (x : ItemRecord) :
    InOrder (replaceFirst isExpected x q) := by
  refine pairwise_replaceFirst h (fun y hy r hp _ _ hye => ?_) (fun r z hr hrz _ => hrz (.inl hr))
  simp [hp, none y hy] at hye

/-- A record EXPECTED joins at the tail (R12). -/
theorem append (h : InOrder q) {x : ItemRecord} (hx : isExpected x = true) : InOrder (q ++ [x]) :=
  List.pairwise_append.mpr ⟨h, List.pairwise_singleton _ _, fun _ _ y hy _ => by rw [List.mem_singleton.mp hy]; exact hx⟩

/-- With no record ON_EYE, a stray goes right before the EXPECTED records (R6, R17). -/
theorem insertStray (h : InOrder q) (none : ∀ r ∈ q, isOnEye r = false) (x : ItemRecord) : InOrder (insertStray x q) := by
  have whole := h
  rw [InOrder, ← List.takeWhile_append_dropWhile (p := fun r => !isExpected r) (l := q)] at whole
  obtain ⟨front, back, across⟩ := List.pairwise_append.mp whole
  have resolved : ∀ r ∈ q.takeWhile (fun r => !isExpected r), ¬ (isExpected r = true ∨ isOnEye r = true) := fun r hr => by
    have he := List.mem_takeWhile_imp hr
    have ho := none r ((List.takeWhile_sublist _).mem hr)
    simp_all
  refine List.pairwise_append.mpr ⟨front, List.pairwise_cons.mpr ⟨fun z hz _ => ?_, back⟩, fun r hr _ _ hre => absurd hre (resolved r hr)⟩
  cases hd : q.dropWhile (fun r => !isExpected r) with
  | nil => simp [hd] at hz
  | cons a l =>
    have ha : isExpected a = true := by
      have := List.head_dropWhile_not (p := fun r => !isExpected r) (l := q) (by simp [hd])
      simpa [hd] using this
    rw [hd] at hz back
    rcases List.mem_cons.mp hz with rfl | hz
    · exact ha
    · exact (List.pairwise_cons.mp back).1 z hz (.inl ha)

/-- Once the ON_EYE record has given way to another state, no record is ON_EYE. -/
theorem noneOnEye (h : InOrder q) {x : ItemRecord} (hx : isOnEye x = false) :
    ∀ y ∈ replaceFirst isOnEye x q, isOnEye y = false := by
  induction q with
  | nil => exact fun _ hy => by cases hy
  | cons r q ih =>
    obtain ⟨head, tail⟩ := List.pairwise_cons.mp h
    unfold replaceFirst
    split
    · rename_i hr
      intro y hy
      rcases List.mem_cons.mp hy with rfl | hy
      · exact hx
      · by_contra hy'
        have := not_isExpected_of_isOnEye (by simpa using hy')
        rw [head y hy (.inr hr)] at this
        cases this
    · rename_i hr
      intro y hy
      rcases List.mem_cons.mp hy with rfl | hy
      · simpa using hr
      · exact ih tail y hy

end InOrder

/-! ## Eyes and their candidates -/

theorem eyeOf_setEye (u : SensorUnit) (e d : EyeId) (x : Eye) : eyeOf (setEye u e x) d = if d = e then x else eyeOf u d := by
  cases e <;> cases d <;> simp [setEye, eyeOf, PerOutlet.get_set]

@[simp] theorem eyeOf_setSince (u : SensorUnit) (e d : EyeId) (p : Pos) : eyeOf (setSince u e p) d = eyeOf u d := by
  cases e <;> cases d <;> rfl

@[simp] theorem eyeOf_lanes (u : SensorUnit) (l : PerOutlet Lane) (d : EyeId) : eyeOf { u with lanes := l } d = eyeOf u d := by
  cases d <;> rfl

@[simp] theorem eyeOf_readLanes (low : Bool) (u : SensorUnit) (d : EyeId) : eyeOf (readLanes low u) d = eyeOf u d :=
  eyeOf_lanes u _ d

theorem eyeOf_acceptEdge (e : EyeId) (b : Bool) (x : Pos) (u : SensorUnit) (d : EyeId) :
    eyeOf (acceptEdge e b x u) d = if d = e then { eyeOf u e with blocked := b, cand := none } else eyeOf u d := by
  unfold acceptEdge
  dsimp only
  split <;> simp [eyeOf_setEye]

theorem eyeOf_turned (e : EyeId) (b : Bool) (x : Pos) (s : State) (d : EyeId) :
    eyeOf (turned e b x s).sensor d = if d = e then { eyeOf s.sensor e with blocked := b, cand := none } else eyeOf s.sensor d := by
  rw [← accepted_eq]
  exact eyeOf_acceptEdge e b x s.sensor d

theorem eyeOf_carryEyes (c : StationConfig) (u : SensorUnit) (d : EyeId) :
    eyeOf (carryEyes c u) d = carryEye (eyeFilter c d) (eyeOf u d) := by
  cases d <;> simp [carryEyes, eyeOf]

theorem eyeOf_sampleInputs (c : StationConfig) (u : SensorUnit) (d : EyeId) :
    eyeOf (sampleInputs c u) d = { eyeOf u d with blocked := eyeLevel (eyeHigh c d) (eyeOf u d).pin, cand := none } := by
  cases d <;> simp [sampleInputs, readLanes, eyeOf]

/-- An eye's candidate is of the level opposite to its stable level (R74). -/
def EyeSound (x : Eye) : Prop := ∀ c, x.cand = some c → c.blocked = !x.blocked

/-- Every eye is sound. -/
def EyesSound (u : SensorUnit) : Prop := ∀ e, EyeSound (eyeOf u e)

theorem eyeSound_of_none {x : Eye} (h : x.cand = none) : EyeSound x := fun c hc => by rw [h] at hc; cases hc

namespace EyesSound

variable {u : SensorUnit}

theorem setEye (h : EyesSound u) (e : EyeId) {x : Eye} (hx : EyeSound x) : EyesSound (setEye u e x) := fun d => by
  rw [eyeOf_setEye]
  split
  · exact hx
  · exact h d

theorem acceptEdge (h : EyesSound u) (e : EyeId) (b : Bool) (x : Pos) : EyesSound (acceptEdge e b x u) := fun d => by
  rw [eyeOf_acceptEdge]
  split
  · exact eyeSound_of_none rfl
  · exact h d

theorem carryEyes (h : EyesSound u) (c : StationConfig) : EyesSound (carryEyes c u) := fun d => by
  rw [eyeOf_carryEyes]
  intro k hk
  obtain ⟨k', hk', rfl⟩ := Option.map_eq_some_iff.mp hk
  exact h d k' hk'

theorem sampleEye {x : Eye} (h : EyeSound x) (filter : Nat) (pos : Pos) (level : Bool) : EyeSound (sampleEye filter pos level x) := by
  unfold Machine.sampleEye
  split
  · exact eyeSound_of_none rfl
  · rename_i hl
    intro c hc
    cases hcand : x.cand with
    | none =>
      rw [hcand] at hc
      cases hc
      cases level <;> simp_all
    | some k =>
      rw [hcand] at hc
      cases hc
      exact h k hcand

/-- A stable level read from the pin (R76). -/
theorem readLevel (h : EyesSound u) (e : EyeId) (pin level : Bool) (pos : Pos) :
    EyesSound (if level then setSince (Machine.setEye u e ⟨pin, level, none⟩) e pos else Machine.setEye u e ⟨pin, level, none⟩) := by
  have read : EyesSound (Machine.setEye u e ⟨pin, level, none⟩) := h.setEye e (eyeSound_of_none rfl)
  split
  · exact fun d => by rw [eyeOf_setSince]; exact read d
  · exact read

/-- A polarity or filter length written for one eye (R76). -/
theorem reconfigureEye (h : EyesSound u) (old new : StationConfig) (pos : Pos) (e : EyeId) :
    EyesSound (reconfigureEye old new pos u e) := by
  unfold Machine.reconfigureEye
  split
  · exact h
  · have taken : EyesSound (match (eyeOf u e).cand with
        | some c => if c.ripe then Machine.acceptEdge e c.blocked c.stamp u else u
        | none => u) := by
      split
      · split
        · exact h.acceptEdge e _ _
        · exact h
      · exact h
    dsimp only
    split
    · exact taken
    · exact taken.readLevel e _ _ pos

theorem applyConfig {s : State} (h : EyesSound s.sensor) (c : StationConfig) : EyesSound (applyConfig c s).sensor := by
  have folded : ∀ (l : List EyeId) (u : SensorUnit), EyesSound u →
      EyesSound (l.foldl (Machine.reconfigureEye s.config c s.position.pos) u) := by
    intro l
    induction l with
    | nil => exact fun _ hu => hu
    | cons e l ih => exact fun u hu => ih _ (hu.reconfigureEye _ _ _ e)
  intro d
  rw [Machine.applyConfig, eyeOf_readLanes]
  exact folded allEyes s.sensor h d

end EyesSound

end Sys2Proof.Machine

namespace Sys2Proof.Safety

open Sys2Proof.Machine

namespace QueueOrdered

variable {s : State}

theorem inOrder (h : QueueOrdered s) : InOrder s.tracking := (inOrder_iff _).mpr h.runs

theorem eyes (h : QueueOrdered s) : EyesSound s.sensor := h.candidates

/-- The five parts, in the terms of this file. -/
theorem of {t : State} (order : InOrder t.tracking) (onEye : ∀ r ∈ t.tracking, isOnEye r = true → t.sensor.entry.blocked = true)
    (eyes : EyesSound t.sensor) (outside : t.control.mode ≠ .tracking → t.tracking = [])
    (held : t.resetHeld = true → t.control.mode = .transparent) : QueueOrdered t :=
  ⟨(inOrder_iff _).mp order, onEye, eyes, outside, held⟩

/-- No record is held (R6, R103). -/
theorem ofEmpty {t : State} (ht : t.tracking = []) (eyes : EyesSound t.sensor)
    (held : t.resetHeld = true → t.control.mode = .transparent) : QueueOrdered t :=
  .of (by rw [ht]; exact .nil) (by simp [ht]) eyes (fun _ => ht) held

theorem congr {t : State} (h : QueueOrdered s) (hr : t.resetHeld = s.resetHeld) (hc : t.control = s.control)
    (hs : t.sensor = s.sensor) (ht : t.tracking = s.tracking) : QueueOrdered t :=
  .of (by rw [ht]; exact h.inOrder) (by rw [ht, hs]; exact h.onEye) (by rw [hs]; exact h.eyes) (by rw [hc, ht]; exact h.outside)
    (by rw [hr, hc]; exact h.held)

theorem untouched {t : State} (u : Untouched s t) (h : QueueOrdered s) : QueueOrdered t :=
  h.congr u.resetHeld u.control u.sensor u.tracking

/-- A change at the eyes that leaves the entry eye's stable level. -/
theorem sensor (h : QueueOrdered s) {u : SensorUnit} (eyes : EyesSound u) (hb : u.entry.blocked = s.sensor.entry.blocked) :
    QueueOrdered { s with sensor := u } :=
  .of h.inOrder (by simpa only [hb] using h.onEye) eyes h.outside h.held

theorem notHeld (h : QueueOrdered s) (hm : s.control.mode ≠ .transparent) : s.resetHeld = false := by
  by_contra hr
  exact hm (h.held (by simpa using hr))

/-- A record is ON_EYE under a blocked entry eye only, so none is when a leading edge waits there (R74). -/
theorem noneOnEye (h : QueueOrdered s) {x : Pos} (hw : Waits .entry true x s) : ∀ r ∈ s.tracking, isOnEye r = false := by
  intro r hr
  by_contra ho
  obtain ⟨c, hc, hv⟩ := Option.map_eq_some_iff.mp hw
  have level := h.candidates .entry c hc
  have blocked : (eyeOf s.sensor .entry).blocked = true := h.onEye r hr (by simpa using ho)
  simp only [Prod.mk.injEq] at hv
  rw [hv.1, blocked] at level
  cases level

/-- In TRACKING, a queue in order whose record ON_EYE, if any, stands under a blocked eye. -/
theorem queue {t : State} {q : List ItemRecord} (eyes : EyesSound t.sensor) (hm : t.control.mode = .tracking)
    (hr : t.resetHeld = false) (hq : InOrder q) (ho : ∀ r ∈ q, isOnEye r = true → t.sensor.entry.blocked = true) :
    QueueOrdered (setTracking q t) :=
  .of hq ho eyes (fun hn => absurd hm hn) (fun hh => absurd hh (by simp [hr]))

theorem eyes_turned (h : QueueOrdered s) (e : EyeId) (b : Bool) (x : Pos) : EyesSound (turned e b x s).sensor := by
  rw [← accepted_eq]
  exact h.eyes.acceptEdge e b x

/-- An entry leading edge finds no record ON_EYE and leaves at most one, under an eye now blocked (R16, R17). -/
theorem entered (h : QueueOrdered s) (hm : s.control.mode = .tracking) {x : Pos} (hw : Waits .entry true x s) :
    QueueOrdered (entryLeading x (turned .entry true x s)) := by
  have held := h.notHeld (by simp [hm])
  refine matchEntry_keeps (Q := QueueOrdered)
    (P := fun u => (QueueOrdered u ∧ ∀ r ∈ u.tracking, isOnEye r = false)
      ∧ u.control.mode = .tracking ∧ u.resetHeld = false ∧ u.sensor.entry.blocked = true) ?_ ?_ ?_ _ ?_
  · rintro r y u ⟨⟨hu, none⟩, hm, hr, hb⟩
    have same := Untouched.removeRecord isExpected r .lost y u
    have erased : ∀ z ∈ u.tracking.eraseP isExpected, isOnEye z = false := fun z hz => none z (List.mem_of_mem_eraseP hz)
    refine ⟨⟨QueueOrdered.untouched same (.queue hu.eyes hm hr (hu.inOrder.erase _) ?_), ?_⟩, by simpa using hm, by simpa using hr,
      by simpa using hb⟩
    · exact fun z hz ho => absurd ho (by simp [erased z hz])
    · rw [same.tracking]
      exact erased
  · rintro u ⟨⟨hu, none⟩, hm, hr, hb⟩
    unfold createStray
    split
    · exact QueueOrdered.untouched (.bump _ _) (.queue hu.eyes hm hr (hu.inOrder.insertStray none _) (fun _ _ _ => hb))
    · exact hu.untouched ((Untouched.bump _ u).trans (.occur _ _))
  · rintro r u - ⟨⟨hu, none⟩, hm, hr, hb⟩
    exact .queue hu.eyes hm hr (hu.inOrder.replaceExpected none _) (fun _ _ _ => hb)
  · have none := h.noneOnEye hw
    refine ⟨⟨.of h.inOrder ?_ (h.eyes_turned _ _ _) h.outside h.held, none⟩, hm, held, rfl⟩
    exact fun r hr ho => absurd ho (by simp [none r hr])

/-- After the resolution at an entry trailing edge no record is ON_EYE (R27, R40, R41). -/
theorem resolved (h : QueueOrdered s) (hm : s.control.mode = .tracking) (x : Pos) :
    QueueOrdered (resolve x (turned .entry false x s)) := by
  have held := h.notHeld (by simp [hm])
  have eyes := h.eyes_turned .entry false x
  have replaced : ∀ r : ItemRecord, isOnEye r = false →
      QueueOrdered (setTracking (replaceFirst isOnEye r s.tracking) (turned .entry false x s)) := fun r hr =>
    .queue eyes hm held (h.inOrder.replaceOnEye r) (fun y hy ho => absurd ho (by simp [h.inOrder.noneOnEye hr y hy]))
  rcases resolve_cases x (turned .entry false x s) with ⟨hn, e⟩ | ⟨r, p, len, why, -, u⟩ | ⟨r, p, len, k, w, ws, -, -, e⟩
  · rw [e]
    exact .of h.inOrder (fun r hr ho => absurd ho (List.find?_eq_none.mp hn r hr)) eyes h.outside h.held
  · refine QueueOrdered.untouched u (replaced _ ?_)
    cases why <;> rfl
  · rw [e]
    exact (replaced { r with stage := .boundOut p len k w } rfl).congr rfl rfl rfl rfl

end QueueOrdered

/-- Every event keeps the order of the queue. -/
theorem eventsKeep_queueOrdered : EventsKeep QueueOrdered where
  untouched u h := h.untouched u
  cold s := .ofEmpty rfl (fun d => eyeSound_of_none (by simp [coldHeld, eyeOf_sampleInputs])) (fun _ => rfl)
  released s hr h := .ofEmpty (h.outside (by simp [h.held hr]))
    (fun d => eyeSound_of_none (by simp [releaseReset, eyeOf_sampleInputs])) (fun hr => by cases hr)
  encoder _ _ h := h.congr rfl rfl rfl rfl
  counted fwd s h := (h.sensor (h.eyes.carryEyes s.config) rfl).congr rfl rfl rfl rfl
  pinHeld e high s h := by
    refine h.sensor (h.eyes.setEye e (h.eyes e)) ?_
    change (eyeOf (setEye _ _ _) .entry).blocked = _
    rw [eyeOf_setEye]
    split
    · subst_vars; rfl
    · rfl
  pin e high s h := by
    refine h.sensor (h.eyes.setEye e (EyesSound.sampleEye (x := { eyeOf s.sensor e with pin := high }) (h.eyes e) _ _ _)) ?_
    change (eyeOf (setEye _ _ _) .entry).blocked = _
    rw [eyeOf_setEye]
    split
    · subst_vars
      unfold sampleEye
      split <;> rfl
    · rfl
  lane l s h := h.sensor (fun d => by rw [eyeOf_lanes]; exact h.eyes d) rfl
  turned e b x s hw hm h := by
    rw [← accepted_eq]
    have eyes := h.eyes.acceptEdge e b x
    by_cases ht : s.control.mode = .tracking
    · refine h.sensor eyes ?_
      change (eyeOf (acceptEdge e b x s.sensor) .entry).blocked = _
      rw [eyeOf_acceptEdge, if_neg (hm ht).symm]
      rfl
    · exact .ofEmpty (h.outside ht) eyes h.held
  entered x s hm hw h := h.entered hm hw
  resolved x s hm _ h := h.resolved hm x
  removed p s h := .of (h.inOrder.erase p) (fun r hr => h.onEye r (List.mem_of_mem_eraseP hr)) h.eyes
    (fun hm => by simp [h.outside hm]) h.held
  windowsEnded _ _ h := h.congr rfl rfl rfl rfl
  faulted c s hm h := by
    rw [takeFault_eq c s hm]
    exact .ofEmpty rfl h.eyes (fun hr => absurd hr (by simp [h.notHeld (by simp [hm])]))
  watched _ _ _ h := h.congr rfl rfl rfl rfl
  fireEnded _ _ h := h.congr rfl rfl rfl rfl
  firesTicked _ h := h.congr rfl rfl rfl rfl
  fireStarted _ _ _ _ _ _ h := h.congr rfl rfl rfl rfl
  adopted i r s hm _ _ h := .queue h.eyes hm (h.notHeld (by simp [hm])) (h.inOrder.replaceOnEye _) (fun y hy ho => by
    rcases mem_replaceFirst hy with hy | ⟨-, z, hz, hzo⟩
    · exact h.onEye y hy ho
    · exact h.onEye z hz hzo)
  admitted i s hm _ _ h := .of (h.inOrder.append rfl)
    (fun r hr ho => by
      rcases List.mem_append.mp hr with hr | hr
      · exact h.onEye r hr ho
      · rw [List.mem_singleton.mp hr] at ho
        cases ho)
    h.eyes (fun hn => absurd hm hn) h.held
  addressed _ _ _ _ _ h := h.congr rfl rfl rfl rfl
  enlisted a s hr hm _ _ h := .ofEmpty (h.outside (by simp [hm])) h.eyes (fun hh => absurd hh (by simp [hr]))
  configured c s hm h := .ofEmpty (h.outside hm) (h.eyes.applyConfig c) h.held
  started s hm h := .ofEmpty (h.outside (by simp [hm])) (fun d => match d with
      | .entry => h.eyes .entry
      | .exit => h.eyes .exit
      | .confirm k => h.eyes (.confirm k))
    (fun hr => absurd hr (by simp [startEffect, h.notHeld (by simp [hm])]))
  stopped s hm h := by
    rw [stopEffect, flush_eq]
    exact .ofEmpty rfl h.eyes (fun hr => absurd hr (by simp [h.notHeld (by simp [hm])]))
  recovered s hm h := .ofEmpty (h.outside (by simp [hm])) h.eyes (fun hr => absurd hr (by simp [recoverEffect, h.notHeld (by simp [hm])]))
  restarted s hm h := .ofEmpty rfl h.eyes (fun hr => absurd hr (by simp [restartEffect, h.notHeld hm]))

/-- Settles O8, by the induction over the dispatch: every event keeps the order of the queue. -/
theorem stepKeepsQueueOrder : Obligations.StepKeepsQueueOrder := fun _ _ h hstep => eventsKeep_queueOrdered.step h hstep

end Sys2Proof.Safety
end

section
/-! PROOFS. The state after reset, and the events that take the station out of TRACKING (R26, R69, R78, R107, R109, R111, R114). -/

namespace Sys2Proof.Safety

open Sys2Proof.Machine

/-! ## The state after reset -/

/-- A power-on whose pins are those of the reset state ends in it (R116). -/
theorem reset_eq_released : State.reset = releaseReset (coldHeld State.reset) := rfl

theorem bankSound_cleared : BankSound Bank.cleared where
  canonical := rfl
  inRange _ _ := rfl
  entries _ _ := by
    change entryWellFormed 0 0 = true
    decide
  blank _ _ _ _ := rfl
  empty _ := rfl
  plan n h := by rcases h with h | h | h <;> cases h

theorem linkSound_cold : LinkSound LinkPort.cold where
  down _ := ⟨by decide, rfl, rfl⟩
  up h := by cases h

theorem banksSound_reset : BanksSound State.reset where
  a := bankSound_cleared
  b := bankSound_cleared
  checkA := iff_of_false (by rintro ⟨n, h⟩; cases h) (by rintro ⟨e, m, h⟩; cases h)
  checkB := iff_of_false (by rintro ⟨n, h⟩; cases h) (by rintro ⟨e, m, h⟩; cases h)
  plans n h := by cases h

theorem channelSound_reset : ChannelSound State.reset where
  unmasked := rfl
  counts := by decide
  linkPorts := by decide
  rxPorts := by decide
  held := by decide
  idle _ := ⟨rfl, rfl, rfl, rfl⟩
  quiet h := by cases h
  slot f h := by cases h
  sending h := by cases h
  timer t h := by cases h
  captured n h := by cases h
  timeout := by decide
  silent h := by cases h

theorem linksSound_reset : LinksSound State.reset where
  u := linkSound_cold
  d := linkSound_cold
  downQueue _ := rfl
  held h := by cases h

/-- What every event keeps, and a cold reset with its release brings, holds of the reset state. -/
theorem reset_of_eventsKeep {P : State → Prop} (k : EventsKeep P) : P State.reset := by
  rw [reset_eq_released]
  exact k.released _ rfl (k.cold _)

/-- Settles O4: the three invariants of the dispatch hold of a cold state released, the other three of the state as it is written. -/
theorem resetMeetsInvariants : Obligations.ResetMeetsInvariants :=
  ⟨reset_of_eventsKeep eventsKeep_withinCapacity, reset_of_eventsKeep eventsKeep_modeDiscipline, banksSound_reset,
    reset_of_eventsKeep eventsKeep_queueOrdered, channelSound_reset, linksSound_reset⟩

/-! ## Faults -/

theorem reversalDue_iff (s : State) :
    reversalDue s = true ↔ s.control.mode = .tracking ∧ s.position.last = .backward
      ∧ s.config.reversalTolerance.toNat < (s.position.highWater - s.position.pos).toNat := by
  simp [reversalDue, and_assoc]

/-- Settles O15: where the last count raises the fault, mode control takes it; where not, the command is no event. -/
theorem reversalTakesStationOut : Obligations.ReversalTakesStationOut := by
  intro s
  have run : exec .reversal s = .next (if reversalDue s then takeFault .reversal s else s) := rfl
  refine ⟨fun hm hl hp => ?_, fun h => ?_⟩
  · rw [run, if_pos ((reversalDue_iff s).mpr ⟨hm, hl, hp⟩), takeFault_eq _ s hm]
  · rw [run, if_neg]
    intro hd
    obtain ⟨hm, hl, hp⟩ := (reversalDue_iff s).mp hd
    rcases h with h | h | h
    · exact h hm
    · exact h hl
    · omega

theorem blockedLimitDue_iff (s : State) (e : EndEye) :
    blockedLimitDue s e = true ↔ s.control.mode = .tracking ∧ s.position.last = .forward ∧ endBlocked s.sensor e = true
      ∧ s.position.pos = plus (blockedSince s.sensor e) s.config.blockedLimit := by
  simp only [blockedLimitDue, reached, Bool.and_eq_true, and_assoc]
  exact and_congr decide_eq_true_iff (and_congr decide_eq_true_iff (and_congr_right fun _ => decide_eq_true_iff))

/-- The fault of an eye blocked too long, taken where a forward count has reached the limit (R78). -/
theorem exec_blockedLimitReached (s : State) (e : EndEye) (hm : s.control.mode = .tracking) (hl : s.position.last = .forward)
    (hb : endBlocked s.sensor e = true) (hp : s.position.pos = plus (blockedSince s.sensor e) s.config.blockedLimit) :
    exec (.blockedLimitReached e) s = .next (trackLost (blockedCause e) s) := by
  rw [← takeFault_eq _ s hm]
  exact congrArg _ (if_pos ((blockedLimitDue_iff s e).mpr ⟨hm, hl, hb, hp⟩))

/-- No limit is reached: no event. -/
theorem exec_blockedLimitReached_of_not_due (s : State) (e : EndEye) (h : ¬ blockedLimitDue s e = true) :
    exec (.blockedLimitReached e) s = .next s := congrArg _ (if_neg h)

/-- Settles O16, eye by eye. -/
theorem blockedLimitTakesStationOut : Obligations.BlockedLimitTakesStationOut := by
  intro s
  refine ⟨fun hm hl hb hp => exec_blockedLimitReached s .entry hm hl hb hp,
    fun hm hl hb hp => exec_blockedLimitReached s .exit hm hl hb hp,
    fun h e => exec_blockedLimitReached_of_not_due s e fun hd => ?_,
    fun h => exec_blockedLimitReached_of_not_due s .entry fun hd => ?_,
    fun h => exec_blockedLimitReached_of_not_due s .exit fun hd => ?_⟩
  all_goals obtain ⟨hm, hl, hb, hp⟩ := (blockedLimitDue_iff s _).mp hd
  · exact h.elim (fun h => h hm) (fun h => h hl)
  · exact h.elim (fun h => by simp [endBlocked, h] at hb) (fun h => h hp)
  · exact h.elim (fun h => by simp [endBlocked, h] at hb) (fun h => h hp)

/-! ## STOP_TRACKING, RECOVER and RESTART -/

/-- RESTART is held off by neither an unsent reply nor a bank check (R165). -/
theorem takeAddressed_restart (num : Byte) (s : State) (hc : ∀ f, s.request.cache ≠ some (num, f)) :
    takeAddressed num 0x23 [] s = answered num 0x23 0x00 [] (restarted s) := by
  have fresh : answerRequest num 0x23 [] s = answered num 0x23 0x00 [] (restarted s) := by
    have executed : executeRequest num 0x23 [] s = restartRule num s := rfl
    unfold answerRequest
    split
    · rename_i n f hn
      rw [if_neg (fun e => hc f (by rw [hn, e]))]
      rw [executed, restartRule, restartEffect_eq]
      rfl
    · rw [executed, restartRule, restartEffect_eq]
      rfl
  unfold takeAddressed
  rw [if_neg (by simp [requestByte])]
  split
  · exact fresh
  · rw [if_neg (by simp [requestByte]), if_pos (by rfl)]
    exact fresh

/-- Settles O58: each request reaches its owning rule, which runs its effect or answers MODE. -/
theorem trackingEnds : Obligations.TrackingEnds := by
  intro addr num s
  refine ⟨fun ht => ?_, fun ho hc => ?_⟩
  · have stop : exec (.stopTracking addr num []) s = .next (stopTrackingRule num (heard .u s)) :=
      exec_of_takes .stopTracking rfl ht (.inr rfl)
    have recover : exec (.recover addr num []) s = .next (recoverRule num (heard .u s)) :=
      exec_of_takes .recover rfl ht (.inr rfl)
    refine ⟨fun hm => ?_, fun hm => ?_, fun hm => ?_, fun hm => ?_⟩
    · rw [stop, stopTrackingRule, if_pos (by simpa using hm), stopEffect_eq]
      rfl
    · rw [stop, stopTrackingRule, if_neg (by simpa using hm), replyMode, modeByte_eq, heard_control]
      rfl
    · rw [recover, recoverRule, if_pos (by simpa using hm), recoverEffect_eq, heard_control, heard_position]
      rfl
    · rw [recover, recoverRule, if_neg (by simpa using hm), replyMode, modeByte_eq, heard_control]
      rfl
  · rw [exec_requestOf s (show requestOf (.restart addr num []) = some (addr, num, 0x23, []) from rfl), receiveRequest_own ho,
      takeAddressed_restart num _ (by simpa using hc)]

end Sys2Proof.Safety
end

section
/-! PROOFS. Edges at the eyes and closes of windows, each as its rule's whole next state (R16 to R23, R53 to R62, R75). -/

namespace Sys2Proof.Safety

open Sys2Proof.Machine

/-! ## Removals by the bytes of their tallies -/

theorem not_atOrPast_iff {x y : Pos} : (!atOrPast x y) = true ↔ ¬ AtOrPast x y := by
  rw [← atOrPast_iff]
  simp

@[simp] theorem tallied_control (f : Byte → Frame) (s : State) : (tallied f s).control = s.control := by
  unfold tallied; split <;> rfl
@[simp] theorem tallied_sensor (f : Byte → Frame) (s : State) : (tallied f s).sensor = s.sensor := by
  unfold tallied; split <;> rfl
@[simp] theorem tallied_tracking (f : Byte → Frame) (s : State) : (tallied f s).tracking = s.tracking := by
  unfold tallied; split <;> rfl

/-- An edge accepted touches the sensor unit, a tally the report unit. -/
theorem tallied_turned (f : Byte → Frame) (e : EyeId) (b : Bool) (x : Pos) (s : State) :
    tallied f (turned e b x s) = turned e b x (tallied f s) := by
  rw [tallied, tallied, apply_ite (turned e b x)]
  rfl

/-- A removal that offers its tally (R22, R23). -/
theorem removeRecord_tallied {p : ItemRecord → Bool} {pre post : List ItemRecord} {q : ItemRecord} (r : ItemRecord)
    (o : OutcomeKind) (x : Pos) (s : State) (hm : s.control.mode = .tracking) (hf : FirstOf p pre q post s)
    (ho : o ≠ .passed ∨ s.config.tallyPasses = true) :
    removeRecord p r o x s =
      tallied (tally s.relay.address (BitVec.ofNat 8 (outcomeCode o)) r.tag r.dest
          (if carriesOutlet o then outletByte r else 0xFF) (BitVec.ofNat 8 (reasonByte (tallyReason o r))) x (lengthOf r))
        (counted (counterIndex (.outcome o)) (queueNow (pre ++ post) s)) := by
  obtain ⟨ht, hq, hp⟩ := hf
  rw [removeRecord_eq r o x s hm ht hq hp, if_pos ho, offerTally_eq, ← lengthOf_eq]
  cases hc : carriesOutlet o with
  | true => rw [tallyOutletByte_carried hc]; rfl
  | false => rw [tallyOutletByte_absent hc]; rfl

/-- A PASSED removal with tally_passes off offers no tally (R22). -/
theorem removeRecord_silent {p : ItemRecord → Bool} {pre post : List ItemRecord} {q : ItemRecord} (r : ItemRecord) (x : Pos)
    (s : State) (hm : s.control.mode = .tracking) (hf : FirstOf p pre q post s) (ho : s.config.tallyPasses = false) :
    removeRecord p r .passed x s = counted 3 (queueNow (pre ++ post) s) := by
  rw [removeRecord_eq r .passed x s hm hf.1 hf.2.1 hf.2.2, if_neg (by simp [ho])]
  rfl

/-- An EXPECTED record has no measured length yet (R28). -/
theorem lengthOf_expected {r : ItemRecord} (h : isExpected r = true) : lengthOf r = none := by
  unfold isExpected at h
  unfold lengthOf
  split <;> simp_all

/-- What the first record of a kind is, a search finds. -/
theorem find_of_firstOf {p : ItemRecord → Bool} {pre post : List ItemRecord} {r : ItemRecord} {s : State}
    (hf : FirstOf p pre r post s) : s.tracking.find? p = some r := by
  obtain ⟨ht, hr, hp⟩ := hf
  rw [ht]
  exact find_first hr hp

/-! ## Edges that only turn the eye -/

/-- Settles O19: the tracking unit does nothing with the edge, or there is no edge. -/
theorem edgesThatOnlyTurnTheEye : Obligations.EdgesThatOnlyTurnTheEye := by
  refine ⟨fun e b x s hw h => ?_, fun e b s h => ?_⟩
  · rw [exec_edge hw]
    congr 1
    unfold trackEdge
    split
    case isFalse => rfl
    case isTrue hm =>
      rcases h with h | ⟨he, rfl⟩ | ⟨rfl, rfl, none⟩ | ⟨k, rfl, absent⟩
      · exact absurd hm h
      · cases e with
        | entry => exact absurd rfl he
        | exit => rfl
        | confirm k => rfl
      · have absent : s.tracking.find? isOnEye = Option.none := List.find?_eq_none.mpr (by simpa using none)
        simp [resolve, absent]
      · cases b with
        | false => rfl
        | true => exact if_neg (fun present => absurd (of_decide_eq_true present) (Nat.not_lt.mpr absent))
  · rw [exec_edgeCommandOf, edgeCommand, edgeDue_none h]

/-! ## The entry leading edge -/

/-- In TRACKING the entry leading edge is judged against the queue (R16). -/
theorem exec_entryLeadingEdge {x : Pos} {s : State} (hm : s.control.mode = .tracking) (hw : Waits .entry true x s) :
    exec .entryLeadingEdge s = .next (matchEntry s.tracking.length x (turned .entry true x s)) := by
  rw [show Instr.entryLeadingEdge = edgeCommandOf .entry true from rfl, exec_edge hw, trackEdge, if_pos (by simpa using hm)]
  rfl

/-- An edge inside the oldest EXPECTED record's window puts that record ON_EYE (R16). -/
theorem matchEntry_matched {n : Nat} {x : Pos} {r : ItemRecord} {s : State} (found : s.tracking.find? isExpected = some r)
    (opened : AtOrPast x (plus r.arrival s.config.approachMin)) (notClosed : ¬ AtOrPast x (plus r.arrival s.config.approachMax)) :
    matchEntry (n + 1) x s = setTracking (replaceFirst isExpected { r with stage := .onEye x } s.tracking) s := by
  simp only [matchEntry, found]
  exact (if_neg (fun h => not_atOrPast_iff.mp h opened)).trans (if_pos (not_atOrPast_iff.mpr notClosed))

/-- An edge past the oldest EXPECTED record's window removes it as LOST and is judged afresh (R16). -/
theorem matchEntry_lost {n : Nat} {x : Pos} {r : ItemRecord} {s : State} (found : s.tracking.find? isExpected = some r)
    (opened : AtOrPast x (plus r.arrival s.config.approachMin)) (closed : AtOrPast x (plus r.arrival s.config.approachMax)) :
    matchEntry (n + 1) x s = matchEntry n x (removeRecord isExpected r .lost (plus r.arrival s.config.approachMax) s) := by
  simp only [matchEntry, found]
  exact (if_neg (fun h => not_atOrPast_iff.mp h opened)).trans (if_neg (fun h => not_atOrPast_iff.mp h closed))

/-- Settles O20. -/
theorem entryEdgeMatchesOldestRecord : Obligations.EntryEdgeMatchesOldestRecord := by
  intro x pre post r s hm hw hf opened notClosed
  obtain ⟨ht, hr, hp⟩ := hf
  have found : (turned .entry true x s).tracking.find? isExpected = some r := find_of_firstOf ⟨ht, hr, hp⟩
  rw [exec_entryLeadingEdge hm hw, ht, List.length_append, List.length_cons, Nat.add_succ,
    matchEntry_matched found opened notClosed, setTracking_eq _ (turned .entry true x s) hm, turned_tracking, ht, replace_first hr hp]

/-- An edge before the oldest EXPECTED record's window, or with no such record, makes a stray (R16, R17). -/
theorem matchEntry_stray {n : Nat} {x : Pos} {s : State}
    (early : ∀ r, s.tracking.find? isExpected = some r → ¬ AtOrPast x (plus r.arrival s.config.approachMin)) :
    matchEntry n x s = createStray x s := by
  cases n with
  | zero => rfl
  | succ n =>
    unfold matchEntry
    split
    · rfl
    · exact if_pos (not_atOrPast_iff.mpr (early _ ‹_›))

/-- A record joins right before the EXPECTED records (R6, R17). -/
theorem insertStray_eq (r : ItemRecord) {pre post : List ItemRecord} (hp : ∀ y ∈ pre, isExpected y = false)
    (hq : ∀ y ∈ post.head?, isExpected y = true) : insertStray r (pre ++ post) = pre ++ r :: post := by
  have front : (pre ++ post).takeWhile (fun y => !isExpected y) = pre := by
    rw [List.takeWhile_append_of_pos (by simpa using hp)]
    cases post with
    | nil => simp
    | cons a post => simp [hq a rfl]
  have back : (pre ++ post).dropWhile (fun y => !isExpected y) = post := by
    rw [List.dropWhile_append_of_pos (by simpa using hp)]
    cases post with
    | nil => rfl
    | cons a post => simp [hq a rfl]
  rw [insertStray, front, back]

/-- Settles O21. -/
theorem entryEdgeMakesStray : Obligations.EntryEdgeMakesStray := by
  intro x pre post s hm hw ht hp hq
  have made : exec .entryLeadingEdge s = .next (createStray x (turned .entry true x s)) := by
    rw [exec_entryLeadingEdge hm hw, matchEntry_stray]
    intro r hr
    rw [turned_tracking, ht] at hr
    cases post with
    | nil =>
      have := hp r (by simpa using List.mem_of_find?_eq_some hr)
      rw [List.find?_some hr] at this
      cases this
    | cons a post =>
      obtain ⟨ha, early⟩ := hq a rfl
      rw [find_first ha hp] at hr
      cases hr
      exact early
  rw [made]
  refine ⟨fun room => ?_, fun full => ?_⟩
  · have joined : createStray x (turned .entry true x s) =
        bump .straysCreated (setTracking (insertStray (strayRecord x) s.tracking) (turned .entry true x s)) := if_pos room
    rw [joined, setTracking_eq _ (turned .entry true x s) hm, ht, insertStray_eq _ hp (fun y hy => (hq y hy).1), bump_eq]
    rfl
  · have dropped : createStray x (turned .entry true x s) = occur .queueFull (bump .straysDropped (turned .entry true x s)) :=
      if_neg (Nat.not_lt.mpr full)
    rw [dropped, occur_eq, bump_eq]
    rfl

/-- Settles O22: the removal as LOST touches nothing that the edge itself touches, so the edge may come after it. -/
theorem entryEdgeFindsRecordLost : Obligations.EntryEdgeFindsRecordLost := by
  intro x pre post r s hm hw hf opened closed
  obtain ⟨ht, hr, hp⟩ := hf
  have found : (turned .entry true x s).tracking.find? isExpected = some r := find_of_firstOf ⟨ht, hr, hp⟩
  have lost := removeRecord_tallied (q := r) r .lost (plus r.arrival s.config.approachMax) (turned .entry true x s) hm ⟨ht, hr, hp⟩
    (.inl (by simp))
  rw [lengthOf_expected hr] at lost
  rw [exec_entryLeadingEdge hm hw,
    exec_entryLeadingEdge (by rw [tallied_control]; exact hm) (by unfold Waits; rw [tallied_sensor]; exact hw), ht,
    List.length_append, List.length_cons, Nat.add_succ, tallied_tracking, ← tallied_turned]
  rw [matchEntry_lost found opened closed, turned_config, lost, ← List.length_append]
  rfl

/-! ## The confirm leading edge -/

theorem counterIndex_confirmedDivert (k : OutletId) : counterIndex (.confirmedDivert k) = ⟨10 + k.val, by omega⟩ := by
  fin_cases k <;> rfl

/-- The first record that the edge matches is credited (R54). -/
theorem confirmLeading_first {k : OutletId} {x : Pos} {pre post : List ItemRecord} {r : ItemRecord} {s : State}
    (present : k.val < s.config.outletsPresent.val) (hf : FirstOf (confirmCandidate s k x) pre r post s) :
    confirmLeading k x s = bump (.confirmedDivert k) (removeRecord (confirmCandidate s k x) r .diverted x s) := by
  have found : s.tracking.find? (confirmCandidate s k x) = some r := find_of_firstOf hf
  refine (if_pos (decide_eq_true present)).trans ?_
  simp only [confirmMatches_eq, found]

/-- An edge that matches no record is a confirm stray (R55). -/
theorem confirmLeading_none {k : OutletId} {x : Pos} {s : State} (present : k.val < s.config.outletsPresent.val)
    (none : ∀ r ∈ s.tracking, confirmCandidate s k x r = false) : confirmLeading k x s = bump .confirmStrays s := by
  have found : s.tracking.find? (confirmCandidate s k x) = Option.none := List.find?_eq_none.mpr (by simpa using none)
  refine (if_pos (decide_eq_true present)).trans ?_
  simp only [confirmMatches_eq, found]

/-- Settles O27. -/
theorem confirmEdgeCreditsFirstRecord : Obligations.ConfirmEdgeCreditsFirstRecord := by
  intro k x s hm hw present
  have run : exec (.confirmLeadingEdge k) s = .next (confirmLeading k x (turned (.confirm k) true x s)) := by
    rw [show Instr.confirmLeadingEdge k = edgeCommandOf (.confirm k) true from rfl, exec_edge hw, trackEdge,
      if_pos (by simpa using hm)]
  rw [run]
  refine ⟨fun pre post r hf => ?_, fun none => ?_⟩
  · have outlet : outletByte r = BitVec.ofNat 8 k.val := by
      have hr := hf.2.1
      unfold confirmCandidate at hr
      unfold outletByte
      cases hs : r.stage <;> simp_all
    have credited := removeRecord_tallied r .diverted x (turned (.confirm k) true x s) hm hf (.inl (by simp))
    rw [show carriesOutlet .diverted = true from rfl, if_pos rfl, outlet] at credited
    rw [confirmLeading_first (s := turned (.confirm k) true x s) present hf, bump_eq, counterIndex_confirmedDivert]
    exact congrArg (fun t => Host.Outcome.next (counted _ t)) credited
  · rw [confirmLeading_none (s := turned (.confirm k) true x s) present none]
    rfl

/-! ## The exit leading edge -/

/-- In TRACKING the exit leading edge is judged against the queue (R58). -/
theorem exec_exitLeadingEdge {x : Pos} {s : State} (hm : s.control.mode = .tracking) (hw : Waits .exit true x s) :
    exec .exitLeadingEdge s = .next (exitLeading x (turned .exit true x s)) := by
  rw [show Instr.exitLeadingEdge = edgeCommandOf .exit true from rfl, exec_edge hw, trackEdge, if_pos (by simpa using hm)]

/-- The first candidate of an exit edge, by its terminal state (R59, R60). -/
theorem exitLeading_first {x : Pos} {pre post : List ItemRecord} {r : ItemRecord} {s : State}
    (hf : FirstOf (exitCandidate s x) pre r post s) :
    exitLeading x s =
      if (boundOutlet r).isSome then exitMissed (exitCandidate s x) r x s else exitPassed (exitCandidate s x) r x s := by
  have found : s.tracking.find? (exitCandidate s x) = some r := find_of_firstOf hf
  simp only [exitLeading, exitMatches_eq, found]

/-- An exit edge with no candidate is an exit stray (R58). -/
theorem exitLeading_none {x : Pos} {s : State} (none : ∀ r ∈ s.tracking, exitCandidate s x r = false) :
    exitLeading x s = bump .exitStrays s := by
  have found : s.tracking.find? (exitCandidate s x) = Option.none := List.find?_eq_none.mpr (by simpa using none)
  simp only [exitLeading, exitMatches_eq, found]

theorem handoffRoom_iff (s : State) : handoffRoom s = true ↔ s.relay.handoffQueue.length < 8 := decide_eq_true_iff

/-- The hand-off ITEM of a resolved record (R61). -/
theorem itemFrame_handoffFields {r : ItemRecord} {len : BitVec 16} (h : lengthOf r = some len) :
    itemFrame (handoffFields r) = handoffItem r len := by
  rw [itemFrame_eq, handoffFields, lengthOf_eq, h]
  rfl

/-- A resolved record handed on, where the hand-off queue has room (R61, R62). -/
theorem handOff_room {p : ItemRecord → Bool} {r : ItemRecord} {len : BitVec 16} (o : OutcomeKind) (x : Pos) {s : State}
    (h : lengthOf r = some len) (room : s.relay.handoffQueue.length < 8) :
    handOff p r o x s = removeRecord p r o x (handedOn (handoffItem r len) s) := by
  rw [handOff, if_pos ((handoffRoom_iff s).mpr room), itemFrame_handoffFields h]
  rfl

/-- A record dropped, where the hand-off queue is full (R62). -/
theorem handOff_full {p : ItemRecord → Bool} {r : ItemRecord} (o : OutcomeKind) (x : Pos) {s : State}
    (full : 8 ≤ s.relay.handoffQueue.length) : handOff p r o x s = removeRecord p r .handoffDropped x (raised 4 s) := by
  rw [handOff, if_neg (fun h => Nat.not_lt.mpr full ((handoffRoom_iff s).mp h)), occur_eq]
  rfl

theorem exitPassed_line {p : ItemRecord → Bool} {r : ItemRecord} {x : Pos} {s : State} (h : s.config.terminal = false) :
    exitPassed p r x s = handOff p r .passed x s := if_neg (by simp [h])

theorem exitPassed_terminal {p : ItemRecord → Bool} {r : ItemRecord} {x : Pos} {s : State} (h : s.config.terminal = true) :
    exitPassed p r x s = removeRecord p r .endOfLine x s := if_pos h

theorem missedRecord_eq (address : BitVec 6) (r : ItemRecord) : missedRecord address r = noted address .divertMissed r := rfl

theorem exitMissed_line {p : ItemRecord → Bool} {r : ItemRecord} {x : Pos} {s : State} (h : s.config.terminal = false) :
    exitMissed p r x s = handOff p (noted s.relay.address .divertMissed r) .divertMissed x (raised 1 s) := by
  rw [exitMissed, occur_eq, missedRecord_eq]
  exact if_neg (fun terminal => Bool.false_ne_true (h.symm.trans terminal))

theorem exitMissed_terminal {p : ItemRecord → Bool} {r : ItemRecord} {x : Pos} {s : State} (h : s.config.terminal = true) :
    exitMissed p r x s = removeRecord p (noted s.relay.address .divertMissed r) .divertMissed x (raised 1 s) := by
  rw [exitMissed, occur_eq, missedRecord_eq]
  exact if_pos h

/-- Settles O28. -/
theorem exitEdgeHandsPassedRecordOn : Obligations.ExitEdgeHandsPassedRecordOn := by
  intro x s hm hw
  rw [exec_exitLeadingEdge hm hw]
  refine ⟨fun pre post r p len why hf hs => ?_, fun none => ?_⟩
  · have through : boundOutlet r = Option.none := by simp [boundOutlet, hs]
    have length : lengthOf r = some len := by simp [lengthOf, hs]
    have outlet : outletByte r = 0xFF := by simp [outletByte, hs]
    have gone : ∀ (o : OutcomeKind) (t : State), t.control.mode = .tracking → FirstOf (exitCandidate s x) pre r post t →
        (o ≠ .passed ∨ t.config.tallyPasses = true) → removeRecord (exitCandidate s x) r o x t =
          tallied (tally t.relay.address (BitVec.ofNat 8 (outcomeCode o)) r.tag r.dest 0xFF
            (BitVec.ofNat 8 (reasonByte (tallyReason o r))) x (some len))
          (counted (counterIndex (.outcome o)) (queueNow (pre ++ post) t)) := by
      intro o t hm hf ho
      rw [removeRecord_tallied r o x t hm hf ho, outlet, ite_self, length]
    have passed : exitLeading x (turned .exit true x s) = exitPassed (exitCandidate s x) r x (turned .exit true x s) :=
      (exitLeading_first (s := turned .exit true x s) hf).trans (if_neg (by simp [through]))
    rw [passed]
    refine ⟨fun ht room tp => ?_, fun ht room tp => ?_, fun ht full => ?_, fun ht => ?_⟩
    · rw [exitPassed_line (s := turned .exit true x s) ht, handOff_room (s := turned .exit true x s) .passed x length room,
        gone .passed (handedOn (handoffItem r len) (turned .exit true x s)) hm hf (.inr tp),
        show BitVec.ofNat 8 (reasonByte (tallyReason .passed r)) = passByte r from passByte_eq r]
      rfl
    · rw [exitPassed_line (s := turned .exit true x s) ht, handOff_room (s := turned .exit true x s) .passed x length room,
        removeRecord_silent r x (handedOn (handoffItem r len) (turned .exit true x s)) hm hf tp]
    · have would : tallyReason .handoffDropped r = some .passed := by simp [tallyReason, through]
      rw [exitPassed_line (s := turned .exit true x s) ht, handOff_full (s := turned .exit true x s) .passed x full,
        gone .handoffDropped (raised 4 (turned .exit true x s)) hm hf (.inl (by simp)), would]
      rfl
    · rw [exitPassed_terminal (s := turned .exit true x s) ht, gone .endOfLine (turned .exit true x s) hm hf (.inl (by simp)),
        show BitVec.ofNat 8 (reasonByte (tallyReason .endOfLine r)) = passByte r from passByte_eq r]
      rfl
  · rw [exitLeading_none (s := turned .exit true x s) none]
    rfl

/-- Settles O29: the record leaves with its DIVERT_MISSED note, which its tally does not show. -/
theorem exitEdgeFindsDivertMissed : Obligations.ExitEdgeFindsDivertMissed := by
  intro x pre post r p len k w s hm hw hf hs
  have length : lengthOf (noted s.relay.address .divertMissed r) = some len := by simp [lengthOf, noted, hs]
  have outlet : outletByte (noted s.relay.address .divertMissed r) = BitVec.ofNat 8 k.val := by simp [outletByte, noted, hs]
  have gone : ∀ (o : OutcomeKind) (t : State), t.control.mode = .tracking → FirstOf (exitCandidate s x) pre r post t →
      o ≠ .passed → carriesOutlet o = true →
      removeRecord (exitCandidate s x) (noted s.relay.address .divertMissed r) o x t =
        tallied (tally t.relay.address (BitVec.ofNat 8 (outcomeCode o)) r.tag r.dest (BitVec.ofNat 8 k.val)
          (BitVec.ofNat 8 (reasonByte (tallyReason o (noted s.relay.address .divertMissed r)))) x (some len))
        (counted (counterIndex (.outcome o)) (queueNow (pre ++ post) t)) := by
    intro o t hm hf ho hc
    rw [removeRecord_tallied (noted s.relay.address .divertMissed r) o x t hm hf (.inl ho), if_pos hc, outlet, length]
    rfl
  have missed : exitLeading x (turned .exit true x s) = exitMissed (exitCandidate s x) r x (turned .exit true x s) :=
    (exitLeading_first (s := turned .exit true x s) hf).trans (if_pos (by simp [boundOutlet, hs]))
  have line : s.config.terminal = false → exitMissed (exitCandidate s x) r x (turned .exit true x s) =
      handOff (exitCandidate s x) (noted s.relay.address .divertMissed r) .divertMissed x (raised 1 (turned .exit true x s)) :=
    exitMissed_line (s := turned .exit true x s)
  have terminal : s.config.terminal = true → exitMissed (exitCandidate s x) r x (turned .exit true x s) =
      removeRecord (exitCandidate s x) (noted s.relay.address .divertMissed r) .divertMissed x (raised 1 (turned .exit true x s)) :=
    exitMissed_terminal (s := turned .exit true x s)
  rw [exec_exitLeadingEdge hm hw, missed]
  refine ⟨fun ht room => ?_, fun ht full => ?_, fun ht => ?_⟩
  · rw [line ht, handOff_room (s := raised 1 (turned .exit true x s)) .divertMissed x length room,
      gone .divertMissed (handedOn _ (raised 1 (turned .exit true x s))) hm hf (by simp) rfl]
    rfl
  · have would : tallyReason .handoffDropped (noted s.relay.address .divertMissed r) = some .divertMissed := by
      simp [tallyReason, boundOutlet, noted, hs]
    rw [line ht, handOff_full (s := raised 1 (turned .exit true x s)) .divertMissed x full,
      gone .handoffDropped (raised 4 (raised 1 (turned .exit true x s))) hm hf (by simp) rfl, would]
    rfl
  · rw [terminal ht, gone .divertMissed (raised 1 (turned .exit true x s)) hm hf (by simp) rfl]
    rfl

/-! ## Closes -/

/-- Closes are reached where a forward count has brought the belt (notes/assumptions/4.md). -/
theorem reached_of_forward {s : State} (h : s.position.last = .forward) : reached s = true := by
  simp [reached, h]

/-- Settles O30. -/
theorem approachCloseLosesRecord : Obligations.ApproachCloseLosesRecord := by
  intro pre post r s hm hl hf
  obtain ⟨expected, closes⟩ := Bool.and_eq_true_iff.mp hf.2.1
  have here : (approachWindow s.config r).closes = s.position.pos := of_decide_eq_true closes
  have due : approachCloseDue s = some r := by
    rw [approachCloseDue, if_pos (reached_of_forward hl)]
    exact find_of_firstOf hf
  have run : exec .approachWindowClose s = .next (closeApproach r s) := by simp [exec, execApproachWindowClose, due]
  rw [run, closeApproach, here,
    removeRecord_tallied r .lost s.position.pos s hm (p := approachClosesAt s.config s.position.pos) hf (.inl (by simp)),
    lengthOf_expected expected]
  rfl

/-- A close ends a BOUND_OUT record as DIVERT_UNCONFIRMED (R53, R60). -/
theorem closeResolved_boundOut {f : ItemRecord → Bool} {pre post : List ItemRecord} {r : ItemRecord} {s : State} {p : Pos}
    {len : BitVec 16} {k : OutletId} {w : Window} (hs : r.stage = .boundOut p len k w) (hm : s.control.mode = .tracking)
    (hf : FirstOf f pre r post s) :
    closeResolved f r s =
      tallied (tally s.relay.address 3 r.tag r.dest (BitVec.ofNat 8 k.val) 0 s.position.pos (some len))
        (counted 2 (queueNow (pre ++ post) (raised 1 s))) := by
  have outcome : closeOutcome r = .divertUnconfirmed := by simp [closeOutcome, hs]
  have gone := removeRecord_tallied r .divertUnconfirmed s.position.pos (raised 1 s) hm hf (.inl (by simp))
  rw [show carriesOutlet .divertUnconfirmed = true from rfl, if_pos rfl,
    show outletByte r = BitVec.ofNat 8 k.val by simp [outletByte, hs], show lengthOf r = some len by simp [lengthOf, hs]] at gone
  simp only [closeResolved, outcome, if_true, occur_eq]
  exact gone

/-- A close ends a BOUND_THROUGH record as PASS_VANISHED (R59). -/
theorem closeResolved_boundThrough {f : ItemRecord → Bool} {pre post : List ItemRecord} {r : ItemRecord} {s : State} {p : Pos}
    {len : BitVec 16} {why : Option Reason} (hs : r.stage = .boundThrough p len why) (hm : s.control.mode = .tracking)
    (hf : FirstOf f pre r post s) :
    closeResolved f r s =
      tallied (tally s.relay.address 5 r.tag r.dest 0xFF (passByte r) s.position.pos (some len))
        (counted 4 (queueNow (pre ++ post) s)) := by
  have outcome : closeOutcome r = .passVanished := by simp [closeOutcome, hs]
  have gone := removeRecord_tallied r .passVanished s.position.pos s hm hf (.inl (by simp))
  rw [show BitVec.ofNat 8 (reasonByte (tallyReason .passVanished r)) = passByte r from passByte_eq r,
    show lengthOf r = some len by simp [lengthOf, hs]] at gone
  simp only [closeResolved, outcome]
  exact gone

theorem confirmCloseDue_eq {s : State} (hl : s.position.last = .forward) :
    confirmCloseDue s = s.tracking.find? (confirmEnds s) := by
  rw [confirmCloseDue, if_pos (reached_of_forward hl), confirmCloseNow_eq]

theorem exitCloseDue_eq {s : State} (hl : s.position.last = .forward) : exitCloseDue s = s.tracking.find? (exitEnds s) := by
  rw [exitCloseDue, if_pos (reached_of_forward hl), firstExitClose, exitCloseRemoves_eq]

/-- The first record whose confirm close is due is closed (R53, R60). -/
theorem exec_confirmWindowClose_first {s : State} {pre post : List ItemRecord} {r : ItemRecord} (hl : s.position.last = .forward)
    (hf : FirstOf (confirmEnds s) pre r post s) : exec .confirmWindowClose s = .next (closeResolved (confirmEnds s) r s) := by
  have due : confirmCloseDue s = some r := (confirmCloseDue_eq hl).trans (find_of_firstOf hf)
  simp [exec, execConfirmWindowClose, due, confirmCloseNow_eq]

/-- The first record whose exit close is due is closed (R59, R60). -/
theorem exec_exitWindowClose_first {s : State} {pre post : List ItemRecord} {r : ItemRecord} (hl : s.position.last = .forward)
    (hf : FirstOf (exitEnds s) pre r post s) : exec .exitWindowClose s = .next (closeResolved (exitEnds s) r s) := by
  have due : exitCloseDue s = some r := (exitCloseDue_eq hl).trans (find_of_firstOf hf)
  simp [exec, execExitWindowClose, due, exitCloseRemoves_eq]

/-- Settles O31. -/
theorem closesEndResolvedRecords : Obligations.ClosesEndResolvedRecords := by
  intro s hm hl
  refine ⟨fun pre post r p len k w hs => ⟨fun hf => ?_, fun hf => ?_⟩, fun pre post r p len why hs hf => ?_, fun none => ?_,
    fun none => ?_⟩
  · rw [exec_confirmWindowClose_first hl hf, closeResolved_boundOut hs hm hf]
  · rw [exec_exitWindowClose_first hl hf, closeResolved_boundOut hs hm hf]
  · rw [exec_exitWindowClose_first hl hf, closeResolved_boundThrough hs hm hf]
  · have due : confirmCloseDue s = Option.none := (confirmCloseDue_eq hl).trans (List.find?_eq_none.mpr (by simpa using none))
    simp [exec, execConfirmWindowClose, due]
  · have due : exitCloseDue s = Option.none := (exitCloseDue_eq hl).trans (List.find?_eq_none.mpr (by simpa using none))
    simp [exec, execExitWindowClose, due]

end Sys2Proof.Safety
end

section
/-! PROOFS. ITEM frames (R9 to R14, R178). -/

namespace Sys2Proof.Safety

open Sys2Proof.Machine

/-! ## ITEM in TRACKING -/

/-- In TRACKING a sound ITEM is tracked (R9). -/
theorem exec_item_tracked {addr : Byte} {payload : List Byte} {i : ItemFields} {s : State} (hh : Hears .u s)
    (hm : s.control.mode = .tracking) (hl : payload.length ≤ 80) (hp : parseItem payload = some i) :
    exec (.item addr payload) s = .next (trackItem i (heard .u s)) := by
  rw [exec_item hh hl (by simp [hm]), takeItem, hp]
  exact congrArg Host.Outcome.next (if_pos (by rw [heard_control, hm]))

/-- With no EXPECTED record a stray on the eye adopts an unstrayed ITEM (R14, notes/assumptions/17.md). -/
theorem adopter_some {i : ItemFields} {s : State} {pre post : List ItemRecord} {r : ItemRecord}
    (none : ∀ x ∈ s.tracking, isExpected x = false) (hf : FirstOf isOnEye pre r post s) (stray : r.flags.stray = true)
    (unstrayed : i.flags.stray = false) : adopter i s = some r := by
  have noExpected : s.tracking.any isExpected = false := List.any_eq_false.mpr (by simpa using none)
  rw [adopter, if_neg (by simp [noExpected, unstrayed])]
  obtain ⟨ht, hr, hp⟩ := hf
  rw [ht]
  exact find_first (by simp [hr, stray]) (fun y hy => by simp [hp y hy])

/-- With an EXPECTED record, a strayed ITEM or no stray on the eye, nothing is adopted (R14). -/
theorem adopter_none {i : ItemFields} {s : State}
    (h : (∃ x ∈ s.tracking, isExpected x = true) ∨ i.flags.stray = true
      ∨ ∀ r ∈ s.tracking, isOnEye r = true → r.flags.stray = false) : adopter i s = none := by
  unfold adopter
  rcases h with expected | stray | noStray
  · exact if_pos (by simp [List.any_eq_true.mpr expected])
  · exact if_pos (by simp [stray])
  · split
    · rfl
    · exact List.find?_eq_none.mpr fun r hr h => by
        obtain ⟨onEye, stray⟩ := Bool.and_eq_true_iff.mp h
        rw [noStray r hr onEye] at stray
        cases stray

theorem trackItem_adopted {i : ItemFields} {s : State} {r : ItemRecord} (h : adopter i s = some r) :
    trackItem i s = setTracking (replaceFirst isOnEye (adoptedRecord i r) s.tracking) s := by
  simp only [trackItem, h]

theorem trackItem_admitted {i : ItemFields} {s : State} (h : adopter i s = none) (room : s.tracking.length < 32) :
    trackItem i s = setTracking (s.tracking ++ [admittedRecord i s.position.pos]) s := by
  simp only [trackItem, h]
  exact if_pos room

theorem trackItem_refused {i : ItemFields} {s : State} (h : adopter i s = none) (full : 32 ≤ s.tracking.length) :
    trackItem i s = counted 9 (raised 2
      (tallied (tally s.relay.address 10 i.tag i.dest 0xFF 0 s.position.pos none) s)) := by
  simp only [trackItem, h]
  refine (if_neg (Nat.not_lt.mpr full)).trans ?_
  rw [bump_eq, occur_eq, offerTally_eq]
  rfl

/-- Settles O42. -/
theorem itemTracked : Obligations.ItemTracked := by
  intro addr payload i s hh hm hl hp
  have hm' : (heard .u s).control.mode = .tracking := by rw [heard_control, hm]
  rw [exec_item_tracked hh hm hl hp]
  refine ⟨fun pre post r none hf stray unstrayed => ?_, fun h => ⟨fun room => ?_, fun full => ?_⟩⟩
  · obtain ⟨ht, hr, hq⟩ := hf
    have adopts : adopter i (heard .u s) = some r :=
      adopter_some (by rwa [heard_tracking]) ⟨by rw [heard_tracking, ht], hr, hq⟩ stray unstrayed
    rw [trackItem_adopted adopts, setTracking_eq _ _ hm', heard_tracking, ht, replace_first hr hq]
    rfl
  all_goals have adopts : adopter i (heard .u s) = none := adopter_none (by rwa [heard_tracking])
  · rw [trackItem_admitted adopts (by rwa [heard_tracking]), setTracking_eq _ _ hm', heard_tracking, heard_position]
    rfl
  · rw [trackItem_refused adopts (by rwa [heard_tracking]), heard_relay, heard_position]

/-! ## Refused ITEMs -/

theorem noteReason_none {b : Byte} (h : b = 0 ∨ 9 < b.toNat) : noteReason b = none := by
  have outside : b.toNat = 0 ∨ 9 < b.toNat := h.imp (fun h => by rw [h]; rfl) id
  unfold noteReason
  split
  case h_10 => rfl
  all_goals omega

/-- One note out of range refuses the notes (R178). -/
theorem parseNotes_none : ∀ (l : List Byte) (j : Nat), 2 * j + 1 < l.length →
    (l.getD (2 * j) 0 = 0 ∨ 62 < (l.getD (2 * j) 0).toNat ∨ l.getD (2 * j + 1) 0 = 0 ∨ 9 < (l.getD (2 * j + 1) 0).toNat) →
    parseNotes l = none
  | [], _, h, _ => by simp at h
  | [_], _, h, _ => by simp at h
  | a :: r :: rest, 0, _, bad => by
    unfold parseNotes
    rcases bad with zero | above | reason
    · exact if_pos (.inl (by simpa using congrArg BitVec.toNat zero))
    · exact if_pos (.inr above)
    · split
      · rfl
      · simp [noteReason_none (b := r) reason]
  | a :: r :: rest, j + 1, h, bad => by
    have rests : parseNotes rest = none := parseNotes_none rest j (by simp at h; omega) bad
    unfold parseNotes
    split
    · rfl
    · simp [rests]

/-- What R178 refuses, the ITEM reader refuses. -/
theorem parseItem_refused {payload : List Byte} (h : RefusedItem payload) : parseItem payload = none := by
  unfold parseItem
  split
  case h_2 => rfl
  case h_1 t1 t0 d1 d0 plan fl hop l1 l0 k rest =>
    refine ite_eq_left_iff.mpr fun sound => ?_
    obtain ⟨capacity, length⟩ := not_or.mp sound
    have length : rest.length = 2 * k.toNat := not_not.mp length
    rcases h with short | above | odd | ⟨j, hj, note⟩ | ⟨noDest, noStray⟩
    · simp only [List.length_cons] at short
      omega
    · exact absurd above capacity
    · exact absurd (show rest.length + 10 = 10 + 2 * k.toNat by omega) odd
    · have hj : j < k.toNat := hj
      rw [show 10 + 2 * j = 2 * j + 10 by omega, show 11 + 2 * j = 2 * j + 1 + 10 by omega] at note
      rw [parseNotes_none rest j (by omega) note]
    · have noDest : d1.msb = false := noDest
      have noStray : fl.getLsbD 0 = false := noStray
      split
      · rfl
      · exact if_pos (by rw [noDest, noStray]; rfl)

/-! ## ITEM out of service -/

theorem exec_item_outOfService {addr : Byte} {payload : List Byte} {i : ItemFields} {s : State} (hh : Hears .u s)
    (ht : s.control.mode ≠ .transparent) (hm : s.control.mode ≠ .tracking) (hl : payload.length ≤ 80)
    (hp : parseItem payload = some i) : exec (.item addr payload) s = .next (outOfService i (heard .u s)) := by
  rw [exec_item hh hl ht, takeItem, hp]
  exact congrArg Host.Outcome.next (if_neg (by rwa [heard_control]))

/-- An ITEM relayed out of service carries its note and one more hop (R10). -/
theorem itemFrame_outOfServiceFields (a : BitVec 6) (i : ItemFields) :
    itemFrame (outOfServiceFields a i) =
      item i.tag i.dest i.plan (noteOn a .outOfService i.trail i.flags).2 (hopped i.hop) i.len i.lenPresent
        (noteOn a .outOfService i.trail i.flags).1 := by
  rw [itemFrame_eq]
  rfl

theorem outOfService_relayed {i : ItemFields} {s : State} (line : s.config.terminal = false)
    (room : s.relay.handoffQueue.length < 8) :
    outOfService i s = handedOn
      (item i.tag i.dest i.plan (noteOn s.relay.address .outOfService i.trail i.flags).2 (hopped i.hop) i.len i.lenPresent
        (noteOn s.relay.address .outOfService i.trail i.flags).1) s := by
  rw [outOfService, if_neg (by simp [line]), if_pos ((handoffRoom_iff s).mpr room), itemFrame_outOfServiceFields]
  rfl

theorem outOfService_dropped {i : ItemFields} {s : State} (line : s.config.terminal = false)
    (full : 8 ≤ s.relay.handoffQueue.length) :
    outOfService i s = counted 8 (raised 4 (tallied (tally s.relay.address 9 i.tag i.dest 0xFF 10 s.position.pos none) s)) := by
  rw [outOfService, if_neg (by simp [line]), if_neg (fun h => Nat.not_lt.mpr full ((handoffRoom_iff s).mp h)), bump_eq, occur_eq,
    offerTally_eq]
  rfl

theorem outOfService_ended {i : ItemFields} {s : State} (terminal : s.config.terminal = true) :
    outOfService i s = counted 7 (tallied (tally s.relay.address 8 i.tag i.dest 0xFF 8 s.position.pos none) s) := by
  rw [outOfService, if_pos terminal, bump_eq, offerTally_eq]
  rfl

/-- In TRANSPARENT an ITEM is relayed as it stands (R150). -/
theorem exec_item_transparent {addr : Byte} {payload : List Byte} {s : State} (hh : Hears .u s) (hl : payload.length ≤ 80)
    (hm : s.control.mode = .transparent) :
    exec (.item addr payload) s = .next (relayedDown ⟨0x01, addr, payload⟩ (heard .u s)) := by
  simp only [exec, execItem]
  rw [receiveFrame_eq _ _ _ hh, if_neg (by simpa using hl), if_neg (by simp [kindFits, kindUpstream, kindItem])]
  simp [frameArrival, frameFromU, kindItem, kindEnumerate, hm, offerDown_eq]

/-- Settles O43. -/
theorem itemOutOfService : Obligations.ItemOutOfService := by
  intro addr payload s hh hl
  refine ⟨fun i ht hm hp => ?_, fun ht refused => ?_, exec_item_transparent hh hl⟩
  · rw [exec_item_outOfService hh ht hm hl hp]
    refine ⟨fun line room => ?_, fun line full => ?_, fun terminal => ?_⟩
    · rw [outOfService_relayed (by rwa [heard_config]) (by rwa [heard_relay]), heard_relay]
    · rw [outOfService_dropped (by rwa [heard_config]) (by rwa [heard_relay]), heard_relay, heard_position]
    · rw [outOfService_ended (by rwa [heard_config]), heard_relay, heard_position]
  · rw [exec_item hh hl ht, takeItem, parseItem_refused refused]

end Sys2Proof.Safety
end

section
/-! PROOFS. Settling a count (notes/assumptions/4.md): the events of the last count are finitely many, so that settling
comes to an end. -/

namespace Sys2Proof.Machine

open Sys2Proof.Safety

/-! ## What the tracking unit leaves alone in an edge or a close -/

/-- `t` agrees with `s` in what tells the events of the last count, but for the outlets and the queue, which has grown by at most `n`. -/
structure Framed (n : Nat) (s t : State) : Prop where
  resetHeld : t.resetHeld = s.resetHeld
  control : t.control = s.control
  config : t.config = s.config
  pos : t.position.pos = s.position.pos
  last : t.position.last = s.position.last
  sensor : t.sensor = s.sensor
  length : t.tracking.length ≤ s.tracking.length + n

namespace Framed

theorem refl (n : Nat) (s : State) : Framed n s s := ⟨rfl, rfl, rfl, rfl, rfl, rfl, Nat.le_add_right _ n⟩

theorem trans {m n : Nat} {s t u : State} (h : Framed m s t) (k : Framed n t u) : Framed (m + n) s u where
  resetHeld := k.resetHeld.trans h.resetHeld
  control := k.control.trans h.control
  config := k.config.trans h.config
  pos := k.pos.trans h.pos
  last := k.last.trans h.last
  sensor := k.sensor.trans h.sensor
  length := by have := h.length; have := k.length; omega

theorem of_untouched {s t : State} (h : Untouched s t) : Framed 0 s t where
  resetHeld := h.resetHeld
  control := h.control
  config := h.config
  pos := by rw [h.position]
  last := by rw [h.position]
  sensor := h.sensor
  length := by rw [h.tracking]; exact le_rfl

theorem setTracking {n : Nat} {q : List ItemRecord} {s : State} (h : q.length ≤ s.tracking.length + n) :
    Framed n s (setTracking q s) := ⟨rfl, rfl, rfl, rfl, rfl, rfl, h⟩

theorem removeRecord (p : ItemRecord → Bool) (r : ItemRecord) (o : OutcomeKind) (x : Pos) (s : State) :
    Framed 0 s (removeRecord p r o x s) :=
  (setTracking (List.eraseP_sublist.length_le)).trans (of_untouched (.removeRecord p r o x s))

theorem handOff (p : ItemRecord → Bool) (r : ItemRecord) (o : OutcomeKind) (x : Pos) (s : State) :
    Framed 0 s (handOff p r o x s) := by
  unfold Machine.handOff
  split
  · exact (of_untouched (.pushHandoff _ s ‹_›)).trans (removeRecord _ _ _ _ _)
  · exact (of_untouched (.occur _ s)).trans (removeRecord _ _ _ _ _)

theorem exitLeading (x : Pos) (s : State) : Framed 0 s (exitLeading x s) := by
  dsimp only [Machine.exitLeading]
  split
  · exact of_untouched (.bump _ s)
  · split
    · have raised : Framed 0 s (occur .divertFault s) := of_untouched (.occur _ s)
      dsimp only [exitMissed]
      split
      · exact raised.trans (removeRecord _ _ _ _ _)
      · exact raised.trans (handOff _ _ _ _ _)
    · unfold exitPassed
      split
      · exact removeRecord _ _ _ _ _
      · exact handOff _ _ _ _ _

theorem confirmLeading (k : OutletId) (x : Pos) (s : State) : Framed 0 s (confirmLeading k x s) := by
  unfold Machine.confirmLeading
  split
  · split
    · exact (removeRecord _ _ _ _ _).trans (of_untouched (.bump _ _))
    · exact of_untouched (.bump _ s)
  · exact refl 0 s

theorem createStray (x : Pos) (s : State) : Framed 1 s (createStray x s) := by
  unfold Machine.createStray
  split
  · exact (setTracking (perm_insertStray _ _).length_eq.le).trans (of_untouched (.bump _ _))
  · exact (refl 1 s).trans ((of_untouched (.bump _ s)).trans (of_untouched (.occur _ _)))

theorem matchEntry (n : Nat) (x : Pos) (s : State) : Framed 1 s (matchEntry n x s) :=
  matchEntry_keeps (P := Framed 0 s) (fun _ _ _ h => h.trans (removeRecord _ _ _ _ _)) (fun _ h => by simpa using h.trans (createStray x _))
    (fun _ _ _ h => by simpa using h.trans (setTracking (n := 1) (by simp))) n (refl 0 s)

theorem resolve (x : Pos) (s : State) : Framed 0 s (resolve x s) := by
  have resolveTo : ∀ y, Framed 0 s (resolveTo y s) := fun y => setTracking (by simp)
  rcases resolve_cases x s with ⟨_, h⟩ | ⟨r, p, len, why, _, h⟩ | ⟨r, p, len, k, w, ws, _, _, h⟩
  · rw [h]
    exact refl 0 s
  · exact (resolveTo _).trans (of_untouched h)
  · rw [h]
    have bound := resolveTo { r with stage := .boundOut p len k w }
    exact bound.trans (n := 0) ⟨rfl, rfl, rfl, rfl, rfl, rfl, le_rfl⟩

/-- An edge leaves the frame alone; only the entry leading edge makes the queue longer (R17). -/
theorem trackEdge (e : EyeId) (b : Bool) (x : Pos) (s : State) : Framed (if e = .entry then 1 else 0) s (trackEdge e b x s) := by
  by_cases hm : s.control.mode = .tracking
  · rw [Machine.trackEdge.eq_def, if_pos hm]
    cases e with
    | entry =>
      cases b with
      | true => exact matchEntry _ x s
      | false => exact (refl 1 s).trans (resolve x s)
    | exit =>
      cases b with
      | true => exact exitLeading x s
      | false => exact refl _ s
    | confirm k =>
      cases b with
      | true => exact confirmLeading k x s
      | false => exact refl _ s
  · rw [Machine.trackEdge.eq_def, if_neg hm]
    exact refl _ s

theorem closeResolved (p : ItemRecord → Bool) (r : ItemRecord) (s : State) : Framed 0 s (closeResolved p r s) := by
  dsimp only [Machine.closeResolved]
  split
  · exact (of_untouched (.occur _ s)).trans (removeRecord _ _ _ _ _)
  · exact removeRecord _ _ _ _ _

end Framed

/-! ## Each event taken leaves fewer -/

/-- An element that alone stops counting leaves the count less by its occurrences. -/
theorem countP_cleared {α : Type} [DecidableEq α] {p q : α → Bool} {a : α} (ha : p a = true) (hq : ∀ x, q x = (p x && !decide (x = a)))
    (l : List α) : l.countP q + l.count a = l.countP p := by
  induction l with
  | nil => rfl
  | cons x l ih =>
    by_cases hx : x = a
    · subst hx
      rw [List.countP_cons_of_neg (by simp [hq]), List.countP_cons_of_pos ha, List.count_cons_self]
      omega
    · rw [List.count_cons_of_ne hx, List.countP_cons, List.countP_cons, hq]
      simp [hx]
      omega

/-- The edges that wait, the entry edge twice: it may bring a record of its own. -/
def edgesLeft (s : State) : Nat := (EyeId.entry :: allEyes).countP (edgeWaits s)

/-- The outlets with a window end still to be taken; all of them while an edge waits, which may bind a record to an outlet. -/
def windowsLeft (s : State) : Nat := if allEyes.any (edgeWaits s) then outletIds.length else outletIds.countP (windowEndDue s)

/-- No more events of the last count than this are still to be taken. -/
def dueBound (s : State) : Nat :=
  edgesLeft s + s.tracking.length + windowsLeft s + (if s.control.mode = .tracking then 1 else 0)

theorem windowsLeft_le (s : State) : windowsLeft s ≤ 4 := by
  unfold windowsLeft
  split
  · exact le_rfl
  · exact List.countP_le_length

theorem dueBound_le (s : State) : dueBound s ≤ s.tracking.length + 16 := by
  have edges : edgesLeft s ≤ 7 := List.countP_le_length
  have windows := windowsLeft_le s
  unfold dueBound
  split <;> omega

theorem edgeWaits_congr {s t : State} (h : t.sensor = s.sensor) : edgeWaits t = edgeWaits s := by
  funext e
  rw [edgeWaits, edgeDue, edgeDue, h]
  rfl

theorem edgesLeft_congr {s t : State} (h : t.sensor = s.sensor) : edgesLeft t = edgesLeft s := by
  rw [edgesLeft, edgeWaits_congr h, edgesLeft]

/-- Once taken, an edge waits no more, and the others as before. -/
theorem edgeWaits_turned (e : EyeId) (b : Bool) (x : Pos) (s : State) (d : EyeId) :
    edgeWaits (turned e b x s) d = (edgeWaits s d && !decide (d = e)) := by
  unfold edgeWaits edgeDue
  rw [eyeOf_turned]
  by_cases h : d = e <;> simp [h]

theorem mem_allEyes (e : EyeId) : e ∈ allEyes := by
  cases e with
  | entry => decide
  | exit => decide
  | confirm k =>
    revert k
    decide

/-- The edges left count the entry edge twice. -/
theorem growth_lt_count (e : EyeId) : (if e = .entry then 1 else 0) < (EyeId.entry :: allEyes).count e := by
  have once : 0 < allEyes.count e := List.count_pos_iff.mpr (mem_allEyes e)
  rw [List.count_cons]
  cases e <;> simp_all

/-- An edge taken (R75). -/
theorem dueBound_edge {e : EyeId} {s : State} (h : edgeWaits s e = true) : dueBound (takeDue (.edge e) s) < dueBound s := by
  obtain ⟨b, x, hw⟩ := waits_of_edgeWaits h
  have taken : takeDue (.edge e) s = trackEdge e b x (turned e b x s) := (takeWaitingEdge_eq hw).trans (takeEdge_eq e b x s)
  have frame := Framed.trackEdge e b x (turned e b x s)
  rw [taken]
  have edges : edgesLeft (trackEdge e b x (turned e b x s)) + (EyeId.entry :: allEyes).count e = edgesLeft s := by
    rw [edgesLeft_congr frame.sensor]
    exact countP_cleared h (edgeWaits_turned e b x s) _
  have twice := growth_lt_count e
  have length := frame.length
  rw [turned_tracking] at length
  have windows : windowsLeft s = 4 := if_pos (List.any_eq_true.mpr ⟨e, mem_allEyes e, h⟩)
  have windows' := windowsLeft_le (trackEdge e b x (turned e b x s))
  unfold dueBound
  rw [frame.control, turned_control]
  omega

theorem windowsLeft_congr {s t : State} (h : Framed 0 s t) (ho : t.outlets = s.outlets) : windowsLeft t = windowsLeft s := by
  have ends : windowEndDue t = windowEndDue s := by
    funext k
    rw [windowEndDue, windowEndDue, reached, reached, ho, h.pos, h.last]
  rw [windowsLeft, windowsLeft, edgeWaits_congr h.sensor, ends]

/-- A record removed by a close. -/
theorem dueBound_removed {p : ItemRecord → Bool} (r : ItemRecord) (o : OutcomeKind) (x : Pos) {s : State} {q : ItemRecord}
    (hq : s.tracking.find? p = some q) : dueBound (removeRecord p r o x s) < dueBound s := by
  have frame := Framed.removeRecord p r o x s
  have rest := Untouched.removeRecord p r o x s
  have length : (removeRecord p r o x s).tracking.length = s.tracking.length - 1 := by
    rw [rest.tracking]
    exact List.length_eraseP_of_mem (List.mem_of_find?_eq_some hq) (List.find?_some hq)
  have held : 0 < s.tracking.length := List.length_pos_of_mem (List.mem_of_find?_eq_some hq)
  unfold dueBound
  rw [edgesLeft_congr frame.sensor, windowsLeft_congr frame rest.outlets, frame.control]
  omega

theorem dueBound_closeResolved {p : ItemRecord → Bool} (r : ItemRecord) {s : State} {q : ItemRecord}
    (hq : s.tracking.find? p = some q) : dueBound (closeResolved p r s) < dueBound s := by
  dsimp only [closeResolved]
  split
  · exact dueBound_removed r _ _ (s := occur .divertFault s) hq
  · exact dueBound_removed r _ _ hq

theorem windowEndDue_endWindows (k : OutletId) (s : State) (j : OutletId) :
    windowEndDue (endWindows k s) j = (windowEndDue s j && !decide (j = k)) := by
  have schedule : ((endWindows k s).outlets.get j).schedule =
      if j = k then (s.outlets.get k).schedule.filter (fun w => !decide (w.closes = s.position.pos)) else (s.outlets.get j).schedule := by
    simp only [endWindows, refreshOutputs, setSchedule, PerOutlet.get_ofFn, PerOutlet.get_set]
    split <;> rfl
  rw [windowEndDue, schedule]
  by_cases h : j = k
  · subst h
    have none : ((s.outlets.get j).schedule.filter (fun w => !decide (w.closes = s.position.pos))).any
        (fun w => decide (w.closes = s.position.pos)) = false :=
      List.any_eq_false.mpr fun w hw => by simpa using (List.mem_filter.mp hw).2
    rw [if_pos rfl]
    exact (congrArg (reached (endWindows j s) && ·) none).trans (by simp)
  · rw [if_neg h, decide_eq_false h, Bool.not_false, Bool.and_true]
    rfl

theorem mem_outletIds (k : OutletId) : k ∈ outletIds := by
  revert k
  decide

/-- The window ends of an outlet taken, where no edge waits (R48). -/
theorem dueBound_endWindows {k : OutletId} {s : State} (none : allEyes.any (edgeWaits s) = false) (h : windowEndDue s k = true) :
    dueBound (endWindows k s) < dueBound s := by
  have frame : Framed 0 s (endWindows k s) := ⟨rfl, rfl, rfl, rfl, rfl, rfl, le_rfl⟩
  have left : windowsLeft (endWindows k s) + outletIds.count k = windowsLeft s := by
    rw [windowsLeft, edgeWaits_congr frame.sensor, none]
    rw [windowsLeft, none]
    exact countP_cleared h (windowEndDue_endWindows k s) _
  have once : 0 < outletIds.count k := List.count_pos_iff.mpr (mem_outletIds k)
  have length := frame.length
  unfold dueBound
  rw [edgesLeft_congr frame.sensor, frame.control]
  omega

/-- A fault taken in TRACKING (R109): nothing is left after it but what waits at the eyes. -/
theorem dueBound_takeFault (c : Cause) {s : State} (hm : s.control.mode = .tracking) : dueBound (takeFault c s) < dueBound s := by
  rw [takeFault_eq c s hm]
  have windows : windowsLeft (trackLost c s) ≤ windowsLeft s := by
    have none : windowEndDue (trackLost c s) = fun _ => false := by
      funext k
      simp [windowEndDue]
    rw [windowsLeft, edgeWaits_congr (trackLost_sensor c s), none, windowsLeft]
    split
    · exact le_rfl
    · simp
  unfold dueBound
  rw [edgesLeft_congr (trackLost_sensor c s), trackLost_tracking, trackLost_control, hm]
  simp
  omega

/-! ## Settling comes to an end -/

/-- The event is one of the last count, and a window end only where no edge waits. -/
def IsDue (s : State) : Due → Prop
  | .edge e => edgeWaits s e = true
  | .approachClose r => approachCloseDue s = some r
  | .confirmClose r => confirmCloseDue s = some r
  | .exitClose r => exitCloseDue s = some r
  | .windowEnd k => allEyes.any (edgeWaits s) = false ∧ windowEndDue s k = true
  | .blocked e => blockedLimitDue s e = true
  | .reversal => reversalDue s = true

theorem isDue_of_nextDue {s : State} {d : Due} (h : nextDue s = some d) : IsDue s d := by
  unfold nextDue at h
  split at h
  · cases h
    exact List.find?_some ‹_›
  · rename_i none
    split at h
    · cases h
      assumption
    · split at h
      · cases h
        assumption
      · split at h
        · cases h
          assumption
        · split at h
          · cases h
            exact ⟨List.any_eq_false.mpr (List.find?_eq_none.mp none), List.find?_some ‹_›⟩
          · split at h
            · cases h
              assumption
            · split at h
              · cases h
                assumption
              · split at h
                · cases h
                  assumption
                · cases h

theorem dueBound_takeDue {s : State} {d : Due} (h : IsDue s d) : dueBound (takeDue d s) < dueBound s := by
  have found : ∀ {p : ItemRecord → Bool} {r}, (if reached s then s.tracking.find? p else none) = some r →
      s.tracking.find? p = some r := fun h => by
    split at h
    · exact h
    · cases h
  cases d with
  | edge e => exact dueBound_edge h
  | approachClose r => exact dueBound_removed r _ _ (found h)
  | confirmClose r => exact dueBound_closeResolved r (found h)
  | exitClose r => exact dueBound_closeResolved r (found h)
  | windowEnd k => exact dueBound_endWindows h.1 h.2
  | blocked e => exact dueBound_takeFault _ (by simp [IsDue, blockedLimitDue] at h; exact h.1.1.1)
  | reversal => exact dueBound_takeFault _ (by simp [IsDue, reversalDue] at h; exact h.1.1)

theorem settleFuel_of_none {n : Nat} {s : State} (h : nextDue s = none) : settleFuel n s = s := by
  cases n with
  | zero => rfl
  | succ n => simp only [settleFuel, h]

theorem settleFuel_succ {n : Nat} {s : State} {d : Due} (h : nextDue s = some d) :
    settleFuel (n + 1) s = settleFuel n (takeDue d s) := by
  simp only [settleFuel, h]

theorem nextDue_settleFuel {n : Nat} {s : State} (h : dueBound s ≤ n) : nextDue (settleFuel n s) = none := by
  induction n generalizing s with
  | zero =>
    cases hd : nextDue s with
    | none => exact hd
    | some d => exact absurd (dueBound_takeDue (isDue_of_nextDue hd)) (by omega)
  | succ n ih =>
    cases hd : nextDue s with
    | none => rw [settleFuel_of_none hd, hd]
    | some d =>
      rw [settleFuel_succ hd]
      have := dueBound_takeDue (isDue_of_nextDue hd)
      exact ih (by omega)

/-- Fuel for every event that is left is enough, and more changes nothing. -/
theorem settleFuel_stable {m n : Nat} {s : State} (hm : dueBound s ≤ m) (hn : dueBound s ≤ n) : settleFuel m s = settleFuel n s := by
  induction m generalizing s n with
  | zero =>
    have none : nextDue s = none := nextDue_settleFuel hm
    rw [settleFuel_of_none none, settleFuel_of_none none]
  | succ m ih =>
    cases hd : nextDue s with
    | none => rw [settleFuel_of_none hd, settleFuel_of_none hd]
    | some d =>
      have less := dueBound_takeDue (isDue_of_nextDue hd)
      obtain ⟨n, rfl⟩ : ∃ k, n = k + 1 := ⟨n - 1, by omega⟩
      rw [settleFuel_succ hd, settleFuel_succ hd]
      exact ih (by omega) (by omega)

theorem nextDue_settle (s : State) : nextDue (settle s) = none := nextDue_settleFuel (dueBound_le s)

theorem settle_of_none {s : State} (h : nextDue s = none) : settle s = s := settleFuel_of_none h

theorem settle_settle (s : State) : settle (settle s) = settle s := settle_of_none (nextDue_settle s)

/-- An event taken by its own command is one that settling need not take. -/
theorem settle_takeDue {s : State} {d : Due} (h : nextDue s = some d) : settle (takeDue d s) = settle s := by
  have less := dueBound_takeDue (isDue_of_nextDue h)
  have bound := dueBound_le s
  calc settle (takeDue d s) = settleFuel (s.tracking.length + 15) (takeDue d s) :=
        settleFuel_stable (dueBound_le _) (by omega)
    _ = settle s := (settleFuel_succ h).symm

end Sys2Proof.Machine
end

section
/-! PROOFS. No event of the last count reads the encoder pair, so a count may move it before or after it settles. -/

namespace Sys2Proof.Machine

open Sys2Proof.Safety

namespace Encoder

variable (m : Bool × Bool)

theorem endWindows (k : OutletId) (s : State) : endWindows k (moveEncoder m s) = moveEncoder m (endWindows k s) := rfl

theorem offerTally (t : Tally) (s : State) : offerTally t (moveEncoder m s) = moveEncoder m (offerTally t s) := by
  dsimp only [Machine.offerTally]
  rw [apply_ite (moveEncoder m)]
  rfl

theorem removeRecord (p : ItemRecord → Bool) (r : ItemRecord) (o : OutcomeKind) (x : Pos) (s : State) :
    removeRecord p r o x (moveEncoder m s) = moveEncoder m (removeRecord p r o x s) := by
  dsimp only [Machine.removeRecord]
  rw [apply_ite (moveEncoder m), ← offerTally]
  rfl

theorem handOff (p : ItemRecord → Bool) (r : ItemRecord) (o : OutcomeKind) (x : Pos) (s : State) :
    handOff p r o x (moveEncoder m s) = moveEncoder m (handOff p r o x s) := by
  unfold Machine.handOff
  rw [apply_ite (moveEncoder m), ← removeRecord, ← removeRecord]
  rfl

theorem exitMissed (p : ItemRecord → Bool) (r : ItemRecord) (x : Pos) (s : State) :
    exitMissed p r x (moveEncoder m s) = moveEncoder m (exitMissed p r x s) := by
  dsimp only [Machine.exitMissed]
  rw [apply_ite (moveEncoder m), ← removeRecord, ← handOff]
  rfl

theorem exitPassed (p : ItemRecord → Bool) (r : ItemRecord) (x : Pos) (s : State) :
    exitPassed p r x (moveEncoder m s) = moveEncoder m (exitPassed p r x s) := by
  unfold Machine.exitPassed
  rw [apply_ite (moveEncoder m), ← removeRecord, ← handOff]
  rfl

theorem exitLeading (x : Pos) (s : State) : exitLeading x (moveEncoder m s) = moveEncoder m (exitLeading x s) := by
  dsimp only [Machine.exitLeading]
  rw [show (moveEncoder m s).tracking.find? (exitMatches (moveEncoder m s).config x) =
    s.tracking.find? (exitMatches s.config x) from rfl]
  cases s.tracking.find? (exitMatches s.config x) with
  | none => rfl
  | some r =>
    dsimp only
    rw [apply_ite (moveEncoder m), ← exitMissed, ← exitPassed]
    rfl

theorem confirmLeading (k : OutletId) (x : Pos) (s : State) :
    confirmLeading k x (moveEncoder m s) = moveEncoder m (confirmLeading k x s) := by
  unfold Machine.confirmLeading
  rw [apply_ite (moveEncoder m)]
  refine if_congr Iff.rfl ?_ rfl
  rw [show (moveEncoder m s).tracking.find? (confirmMatches (moveEncoder m s).config k x) =
    s.tracking.find? (confirmMatches s.config k x) from rfl]
  cases s.tracking.find? (confirmMatches s.config k x) with
  | none => rfl
  | some r => exact congrArg (Machine.bump _) (removeRecord m _ r _ x s)

theorem createStray (x : Pos) (s : State) : createStray x (moveEncoder m s) = moveEncoder m (createStray x s) := by
  unfold Machine.createStray
  rw [apply_ite (moveEncoder m)]
  rfl

theorem matchEntry (n : Nat) (x : Pos) (s : State) : matchEntry n x (moveEncoder m s) = moveEncoder m (matchEntry n x s) := by
  induction n generalizing s with
  | zero => exact createStray m x s
  | succ n ih =>
    unfold Machine.matchEntry
    rw [show (moveEncoder m s).tracking.find? isExpected = s.tracking.find? isExpected from rfl]
    cases s.tracking.find? isExpected with
    | none => exact createStray m x s
    | some r =>
      dsimp only
      rw [apply_ite (moveEncoder m), apply_ite (moveEncoder m), ← createStray, ← ih, ← removeRecord]
      rfl

theorem bindOutlet (k : OutletId) (t p : Pos) (len : BitVec 16) (r : ItemRecord) (s : State) :
    bindOutlet k t p len r (moveEncoder m s) = moveEncoder m (bindOutlet k t p len r s) := by
  dsimp only [Machine.bindOutlet]
  rw [apply_ite (moveEncoder m)]
  refine if_congr Iff.rfl rfl ?_
  rw [show offerWindow (firingWindow (moveEncoder m s).config p len k) ((moveEncoder m s).outlets.get k).schedule =
    offerWindow (firingWindow s.config p len k) (s.outlets.get k).schedule from rfl]
  cases offerWindow (firingWindow s.config p len k) (s.outlets.get k).schedule <;> rfl

theorem resolve (t : Pos) (s : State) : resolve t (moveEncoder m s) = moveEncoder m (resolve t s) := by
  unfold Machine.resolve
  rw [show (moveEncoder m s).tracking.find? isOnEye = s.tracking.find? isOnEye from rfl]
  cases s.tracking.find? isOnEye with
  | none => rfl
  | some r =>
    dsimp only
    cases r.stage with
    | onEye p =>
      dsimp only
      rw [show routeRecord (moveEncoder m s) r (measure p t) = routeRecord s r (measure p t) from rfl]
      cases routeRecord s r (measure p t) with
      | through why => rfl
      | outlet k => exact bindOutlet m k t p _ r s
    | _ => rfl

theorem trackEdge (e : EyeId) (b : Bool) (x : Pos) (s : State) :
    trackEdge e b x (moveEncoder m s) = moveEncoder m (trackEdge e b x s) := by
  rw [Machine.trackEdge.eq_def, Machine.trackEdge.eq_def, apply_ite (moveEncoder m)]
  refine if_congr Iff.rfl ?_ rfl
  cases e with
  | entry =>
    cases b with
    | true => exact matchEntry m _ x s
    | false => exact resolve m x s
  | exit =>
    cases b with
    | true => exact exitLeading m x s
    | false => rfl
  | confirm k =>
    cases b with
    | true => exact confirmLeading m k x s
    | false => rfl

theorem takeEdge (e : EyeId) (b : Bool) (x : Pos) (s : State) :
    takeEdge e b x (moveEncoder m s) = moveEncoder m (takeEdge e b x s) := trackEdge m e b x { s with sensor := acceptEdge e b x s.sensor }

theorem takeWaitingEdge (e : EyeId) (s : State) : takeWaitingEdge e (moveEncoder m s) = moveEncoder m (takeWaitingEdge e s) := by
  unfold Machine.takeWaitingEdge
  rw [show edgeDue (moveEncoder m s) e = edgeDue s e from rfl]
  cases edgeDue s e true with
  | some x => exact takeEdge m e true x s
  | none =>
    cases edgeDue s e false with
    | some x => exact takeEdge m e false x s
    | none => rfl

theorem closeResolved (p : ItemRecord → Bool) (r : ItemRecord) (s : State) :
    closeResolved p r (moveEncoder m s) = moveEncoder m (closeResolved p r s) := by
  dsimp only [Machine.closeResolved]
  split
  · exact removeRecord m p r _ _ (Machine.occur .divertFault s)
  · exact removeRecord m p r _ _ s

theorem takeFault (c : Cause) (s : State) : takeFault c (moveEncoder m s) = moveEncoder m (takeFault c s) := by
  by_cases hm : s.control.mode = .tracking
  · rw [takeFault_eq c s hm, takeFault_eq c (moveEncoder m s) hm]
    rfl
  · exact (if_neg hm).trans (congrArg (moveEncoder m) (if_neg hm).symm)

theorem takeDue (d : Due) (s : State) : takeDue d (moveEncoder m s) = moveEncoder m (takeDue d s) := by
  cases d with
  | edge e => exact takeWaitingEdge m e s
  | approachClose r =>
    exact removeRecord m (approachClosesAt s.config s.position.pos) r .lost (approachWindow s.config r).closes s
  | confirmClose r => exact closeResolved m _ r s
  | exitClose r => exact closeResolved m _ r s
  | windowEnd k => exact endWindows m k s
  | blocked e => exact takeFault m _ s
  | reversal => exact takeFault m _ s

theorem nextDue (s : State) : nextDue (moveEncoder m s) = nextDue s := rfl

theorem settleFuel (n : Nat) (s : State) : settleFuel n (moveEncoder m s) = moveEncoder m (settleFuel n s) := by
  induction n generalizing s with
  | zero => rfl
  | succ n ih =>
    cases h : Machine.nextDue s with
    | none => rw [settleFuel_of_none h, settleFuel_of_none ((nextDue m s).trans h)]
    | some d => rw [settleFuel_succ h, settleFuel_succ ((nextDue m s).trans h), takeDue, ih]

theorem settle (s : State) : settle (moveEncoder m s) = moveEncoder m (settle s) := settleFuel m _ s

/-- What commutes with every move of the encoder pair leaves the pair alone. -/
theorem unmoved {f : State → State} (h : ∀ m s, f (moveEncoder m s) = moveEncoder m (f s)) (s : State) :
    (f s).position.encA = s.position.encA ∧ (f s).position.encB = s.position.encB := by
  have same : f s = moveEncoder (s.position.encA, s.position.encB) (f s) := h (s.position.encA, s.position.encB) s
  constructor <;> rw [same] <;> rfl

end Encoder

/-! ## Counts -/

theorem resetHeld_takeDue (d : Due) (s : State) : (takeDue d s).resetHeld = s.resetHeld := by
  have fault : ∀ c, (takeFault c s).resetHeld = s.resetHeld := fun c => by
    by_cases hm : s.control.mode = .tracking
    · rw [takeFault_eq c s hm, trackLost_resetHeld]
    · exact congrArg State.resetHeld (if_neg hm)
  cases d with
  | edge e =>
    dsimp only [takeDue, takeWaitingEdge]
    split
    · exact (Framed.trackEdge e true _ _).resetHeld
    · split
      · exact (Framed.trackEdge e false _ _).resetHeld
      · rfl
  | approachClose r => exact (Framed.removeRecord _ r _ _ s).resetHeld
  | confirmClose r => exact (Framed.closeResolved _ r s).resetHeld
  | exitClose r => exact (Framed.closeResolved _ r s).resetHeld
  | windowEnd k => rfl
  | blocked e => exact fault _
  | reversal => exact fault _

theorem resetHeld_settleFuel (n : Nat) (s : State) : (settleFuel n s).resetHeld = s.resetHeld := by
  induction n generalizing s with
  | zero => rfl
  | succ n ih =>
    cases h : nextDue s with
    | none => rw [settleFuel_of_none h]
    | some d => rw [settleFuel_succ h, ih, resetHeld_takeDue]

/-- A count moves the encoder pair and takes the count where the last one has settled. -/
theorem exec_forwardCount {s : State} (h : s.resetHeld = false) :
    exec .forwardCount s =
      .next (takeCount true (moveEncoder (encoderForward s.position.encA s.position.encB) (settle s))) := by
  rw [← Encoder.settle]
  exact congrArg Host.Outcome.next (if_neg (by simp [h]))

theorem exec_backwardCount {s : State} (h : s.resetHeld = false) :
    exec .backwardCount s =
      .next (takeCount false (moveEncoder (encoderBackward s.position.encA s.position.encB) (settle s))) := by
  rw [← Encoder.settle]
  exact congrArg Host.Outcome.next (if_neg (by simp [h]))

/-- What takes events of the last count leaves the next count as it would be. -/
theorem counts_of_settle {f : State → State} (commutes : ∀ m s, f (moveEncoder m s) = moveEncoder m (f s)) {s : State}
    (h : s.resetHeld = false) (held : (f s).resetHeld = s.resetHeld) (settled : settle (f s) = settle s) :
    exec .forwardCount s = exec .forwardCount (f s) ∧ exec .backwardCount s = exec .backwardCount (f s) := by
  obtain ⟨encA, encB⟩ := Encoder.unmoved commutes s
  have h' := held.trans h
  constructor
  · rw [exec_forwardCount h, exec_forwardCount h', encA, encB, settled]
  · rw [exec_backwardCount h, exec_backwardCount h', encA, encB, settled]

end Sys2Proof.Machine

namespace Sys2Proof.Safety

open Sys2Proof.Machine

/-- Settles O14. -/
theorem countTakesWhatIsDue : Obligations.CountTakesWhatIsDue := by
  intro s h
  refine ⟨fun d hd => ?_, settle_of_none, nextDue_settle s, ?_⟩
  · have settled := settle_takeDue hd
    exact ⟨takeDue d s, exec_dueCommand hd, settled,
      counts_of_settle (f := takeDue d) (Encoder.takeDue · d) h (resetHeld_takeDue d s) settled⟩
  · exact counts_of_settle Encoder.settle h (resetHeld_settleFuel _ s) (settle_settle s)

end Sys2Proof.Safety
end

section
/-! PROOFS. Resolution at the entry trailing edge: the offer of a firing window to a schedule (R45, R46) and the record it leaves, passed
or bound (R27 to R42). -/

namespace Sys2Proof.Machine

open Sys2Proof.Safety

/-! ## The window that spans an offer and what it meets (R46) -/

/-- Two positions each at or past the other are one. -/
theorem atOrPast_antisymm {x y : Pos} (hxy : AtOrPast x y) (hyx : AtOrPast y x) : x = y := by
  simp only [AtOrPast, BitVec.toNat_sub] at hxy hyx
  bv_omega

theorem earlier_eq_left {x y : Pos} (h : AtOrPast y x) : earlier x y = x := if_pos ((atOrPast_iff y x).mpr h)

theorem earlier_eq_right {x y : Pos} (h : AtOrPast x y) : earlier x y = y :=
  ite_eq_right_iff.mpr fun hyx => atOrPast_antisymm h ((atOrPast_iff y x).mp hyx)

theorem later_eq_right {x y : Pos} (h : AtOrPast y x) : later x y = y := if_pos ((atOrPast_iff y x).mpr h)

theorem later_eq_left {x y : Pos} (h : AtOrPast x y) : later x y = x :=
  ite_eq_right_iff.mpr fun hyx => atOrPast_antisymm ((atOrPast_iff y x).mp hyx) h

/-- Positions wrap, so "at or past" is not transitive; an operation that picks one of two positions still folds to the extreme `e` of a
list, for once `e` is met nothing displaces it. -/
theorem foldl_eq_extreme {f : Pos → Pos → Pos} {R : Pos → Pos → Prop} (left : ∀ {x y}, R y x → f x y = x)
    (right : ∀ {x y}, R x y → f x y = y) (choice : ∀ x y, f x y = x ∨ f x y = y) {e x : Pos} {xs : List Pos} (he : e ∈ x :: xs)
    (hR : ∀ y ∈ x :: xs, R y e) : xs.foldl f x = e := by
  induction xs generalizing x with
  | nil => exact (List.mem_singleton.mp he).symm
  | cons y ys ih =>
    obtain ⟨hx, hy, hys⟩ : R x e ∧ R y e ∧ ∀ z ∈ ys, R z e := by simpa using hR
    have picked : R (f x y) e := by rcases choice x y with h | h <;> rwa [h]
    have met : e ∈ f x y :: ys := by
      rcases List.mem_cons.mp he with rfl | he
      · simp [left hy]
      · rcases List.mem_cons.mp he with rfl | he
        · simp [right hx]
        · exact List.mem_cons_of_mem _ he
    exact ih met (List.forall_mem_cons.mpr ⟨picked, hys⟩)

theorem foldl_spanning_opens (n : Window) (m : List Window) :
    (m.foldl spanning n).opens = (m.map Window.opens).foldl earlier n.opens := by
  rw [List.foldl_map]
  exact (List.foldl_hom Window.opens fun _ _ => rfl).symm

theorem foldl_spanning_closes (n : Window) (m : List Window) :
    (m.foldl spanning n).closes = (m.map Window.closes).foldl later n.closes := by
  rw [List.foldl_map]
  exact (List.foldl_hom Window.closes fun _ _ => rfl).symm

/-- The window that replaces an offer and the windows it meets runs from their earliest start to their latest end (R46). -/
theorem foldl_spanning_eq {n : Window} {m : List Window} {lo hi : Pos} (hlo : lo ∈ (n :: m).map Window.opens)
    (hhi : hi ∈ (n :: m).map Window.closes) (bounds : ∀ w ∈ n :: m, AtOrPast w.opens lo ∧ AtOrPast hi w.closes) :
    m.foldl spanning n = ⟨lo, hi⟩ := by
  have opens : (m.foldl spanning n).opens = lo := by
    rw [foldl_spanning_opens]
    exact foldl_eq_extreme (R := fun y e => AtOrPast y e) earlier_eq_left earlier_eq_right (fun _ _ => ite_eq_or_eq _ _ _) hlo
      (List.forall_mem_map.mpr fun w hw => (bounds w hw).1)
  have closes : (m.foldl spanning n).closes = hi := by
    rw [foldl_spanning_closes]
    exact foldl_eq_extreme (R := fun y e => AtOrPast e y) later_eq_left later_eq_right (fun _ _ => (ite_eq_or_eq _ _ _).symm) hhi
      (List.forall_mem_map.mpr fun w hw => (bounds w hw).2)
  rw [← opens, ← closes]

/-! ## The offer of a window to a schedule (R45, R46) -/

/-- A window joins after those that start before it and before the first that does not (R45). -/
theorem insertWindow_eq {n : Window} {a b : List Window} (before : ∀ w ∈ a, ¬ AtOrPast w.opens n.opens)
    (after : ∀ w ∈ b.head?, AtOrPast w.opens n.opens) : insertWindow n (a ++ b) = a ++ n :: b := by
  have before : ∀ w ∈ a, (!atOrPast w.opens n.opens) = true := fun w hw => not_atOrPast_iff.mpr (before w hw)
  rw [insertWindow, List.takeWhile_append_of_pos before, List.dropWhile_append_of_pos before]
  cases b with
  | nil => simp
  | cons w b =>
    have starts : atOrPast w.opens n.opens = true := (atOrPast_iff _ _).mpr (after w rfl)
    simp [starts]

/-- The windows `m` that an offer meets make way, with it, for the window that spans them all; the windows `a` before and `b` after it
stay (R46). -/
theorem offerWindow_eq {n : Window} {a m b : List Window} {lo hi : Pos} (met : ∀ w ∈ m, Meets n w)
    (unmet : ∀ w ∈ a ++ b, ¬ Meets n w) (room : m ≠ [] ∨ (a ++ m ++ b).length < 8)
    (spans : m.foldl spanning n = ⟨lo, hi⟩) (before : ∀ w ∈ a, ¬ AtOrPast w.opens lo)
    (after : ∀ w ∈ b.head?, AtOrPast w.opens lo) : offerWindow n (a ++ m ++ b) = some (a ++ ⟨lo, hi⟩ :: b) := by
  have meets : ∀ w ∈ m, windowsMeet n w = true := fun w hw => (windowsMeet_iff n w).mpr (met w hw)
  have apart : ∀ w ∈ a ++ b, windowsMeet n w = false := fun w hw =>
    Bool.eq_false_iff.mpr fun h => unmet w hw ((windowsMeet_iff n w).mp h)
  obtain ⟨apartA, apartB⟩ := List.forall_mem_append.mp apart
  have inserted : insertWindow (m.foldl spanning n) (a ++ b) = a ++ ⟨lo, hi⟩ :: b := by
    rw [spans]
    exact insertWindow_eq before after
  have found : (a ++ m ++ b).filter (windowsMeet n) = m := by
    have noneA : a.filter (windowsMeet n) = [] := List.filter_eq_nil_iff.mpr (by simpa using apartA)
    have noneB : b.filter (windowsMeet n) = [] := List.filter_eq_nil_iff.mpr (by simpa using apartB)
    have allM : m.filter (windowsMeet n) = m := List.filter_eq_self.mpr meets
    simp [noneA, noneB, allM]
  have kept : (a ++ m ++ b).filter (fun w => !windowsMeet n w) = a ++ b := by
    have allA : a.filter (fun w => !windowsMeet n w) = a := List.filter_eq_self.mpr (by simpa using apartA)
    have allB : b.filter (fun w => !windowsMeet n w) = b := List.filter_eq_self.mpr (by simpa using apartB)
    have noneM : m.filter (fun w => !windowsMeet n w) = [] := List.filter_eq_nil_iff.mpr (by simpa using meets)
    simp [allA, allB, noneM]
  rw [offerWindow, found, kept]
  cases m with
  | nil =>
    have fits : (a ++ [] ++ b).length < Config.scheduleCapacity := room.resolve_left (absurd rfl)
    rw [List.append_nil] at fits ⊢
    exact (if_pos fits).trans (congrArg some inserted)
  | cons w m => exact congrArg some inserted

end Sys2Proof.Machine

namespace Sys2Proof.Safety

open Sys2Proof.Machine

/-! ## The entry trailing edge -/

section

variable {t p : Pos} {pre post : List ItemRecord} {r : ItemRecord} {s : State} {k : OutletId}

/-- In TRACKING the entry trailing edge resolves the record on the eye (R27). -/
theorem exec_entryTrailingEdge (hm : s.control.mode = .tracking) (hw : Waits .entry false t s) :
    exec .entryTrailingEdge s = .next (resolve t (turned .entry false t s)) := by
  rw [show Instr.entryTrailingEdge = edgeCommandOf .entry false from rfl, exec_edge hw, trackEdge, if_pos (by simpa using hm)]

/-- The first record on the eye replaced where it stands (R6). -/
theorem resolveTo_eq (x : ItemRecord) (hm : s.control.mode = .tracking) (hf : FirstOf isOnEye pre r post s) :
    resolveTo x s = queueNow (pre ++ x :: post) s := by
  obtain ⟨ht, hr, hp⟩ := hf
  rw [resolveTo, setTracking_eq _ s hm, ht, replace_first hr hp]

/-- The eye that turns is none of what steps 1 to 6 read: bank, configuration, lanes (R30 to R37). -/
theorem routeRecord_turned (r : ItemRecord) (len : BitVec 16) (s : State) :
    routeRecord (turned .entry false t s) r len = routeRecord s r len := rfl

/-- A record that steps 1 to 6 pass is BOUND_THROUGH (R41, R42). -/
theorem exec_entryTrailingEdge_through {why : Option Reason} (h : Resolves t p pre r post s)
    (route : routeRecord s r (measuredAs p t) = .through why) :
    exec .entryTrailingEdge s =
      .next (queueNow (pre ++ passed s.relay.address p (measuredAs p t) why r :: post) (turned .entry false t s)) := by
  obtain ⟨hm, hw, hf, stage⟩ := h
  have found : (turned .entry false t s).tracking.find? isOnEye = some r := find_of_firstOf hf
  rw [exec_entryTrailingEdge hm hw, resolve]
  simp only [found, stage, measure_eq, routeRecord_turned, route, passRecord_eq, turned_relay]
  exact congrArg _ (resolveTo_eq _ hm hf)

/-- A record for which steps 1 to 6 choose an outlet is offered to it (R38). -/
theorem exec_entryTrailingEdge_outlet (h : Resolves t p pre r post s) (route : routeRecord s r (measuredAs p t) = .outlet k) :
    exec .entryTrailingEdge s = .next (bindOutlet k t p (measuredAs p t) r (turned .entry false t s)) := by
  obtain ⟨hm, hw, hf, stage⟩ := h
  have found : (turned .entry false t s).tracking.find? isOnEye = some r := find_of_firstOf hf
  rw [exec_entryTrailingEdge hm hw, resolve]
  simp only [found, stage, measure_eq, routeRecord_turned, route]

theorem firingWindow_eq (s : State) (p : Pos) (len : BitVec 16) (k : OutletId) :
    firingWindow s.config p len k = firingWindowOf s p len k := rfl

theorem late_iff (t : Pos) (w : Window) (s : State) : (atOrPast t w.opens || atOrPast s.position.pos w.opens) = true ↔ Late t w s := by
  rw [Bool.or_eq_true, atOrPast_iff, atOrPast_iff]

/-- A window that has begun is not offered: the record passes with LATE (R39). -/
theorem bindOutlet_late {len : BitVec 16} (late : Late t (firingWindowOf s p len k) s) :
    bindOutlet k t p len r s = resolveTo (passed s.relay.address p len (some .late) r) s := by
  rw [← passRecord_eq]
  exact if_pos ((late_iff _ _ _).mpr late)

/-- A window that has not begun and that the schedule takes binds the record to the outlet (R40). -/
theorem bindOutlet_taken {len : BitVec 16} {ws : List Window} (inTime : ¬ Late t (firingWindowOf s p len k) s)
    (taken : offerWindow (firingWindowOf s p len k) (s.outlets.get k).schedule = some ws) :
    bindOutlet k t p len r s =
      drive (setSchedule k ws (resolveTo { r with stage := .boundOut p len k (firingWindowOf s p len k) } s)) := by
  rw [← refreshOutputs_eq, bindOutlet, firingWindow_eq]
  simp only [taken]
  exact if_neg fun h => inTime ((late_iff _ _ _).mp h)

end

/-- Settles O23. -/
theorem resolutionPassesRecord : Obligations.ResolutionPassesRecord := fun _ _ _ _ r s why h passes =>
  exec_entryTrailingEdge_through h (routeRecord_of_passes s r _ why passes)

/-- Settles O24. -/
theorem resolutionLate : Obligations.ResolutionLate := by
  intro t p pre post r s k h chooses late
  have ⟨hm, _, hf, _⟩ := h
  calc exec .entryTrailingEdge s
      = .next (bindOutlet k t p (measuredAs p t) r (turned .entry false t s)) :=
        exec_entryTrailingEdge_outlet h (routeRecord_of_chooses s r _ k chooses)
    _ = .next (resolveTo (passed s.relay.address p (measuredAs p t) (some .late) r) (turned .entry false t s)) :=
        congrArg _ (bindOutlet_late late)
    _ = _ := congrArg _ (resolveTo_eq _ hm hf)

/-- Settles O26: the schedule takes the window, so the record is bound where it stands. -/
theorem resolutionBindsOutlet : Obligations.ResolutionBindsOutlet := by
  intro t p pre post r s k a m b lo hi h chooses inTime schedule met unmet room hlo hhi bounds before after
  have ⟨hm, _, hf, _⟩ := h
  have taken : offerWindow (firingWindowOf s p (measuredAs p t) k) (s.outlets.get k).schedule = some (a ++ ⟨lo, hi⟩ :: b) := by
    rw [schedule] at room ⊢
    exact offerWindow_eq met unmet room (foldl_spanning_eq hlo hhi bounds) before after
  have bound := resolveTo_eq (s := turned .entry false t s)
    { r with stage := .boundOut p (measuredAs p t) k (firingWindowOf s p (measuredAs p t) k) } hm hf
  calc exec .entryTrailingEdge s
      = .next (bindOutlet k t p (measuredAs p t) r (turned .entry false t s)) :=
        exec_entryTrailingEdge_outlet h (routeRecord_of_chooses s r _ k chooses)
    _ = .next (drive (setSchedule k (a ++ ⟨lo, hi⟩ :: b)
          (resolveTo { r with stage := .boundOut p (measuredAs p t) k (firingWindowOf s p (measuredAs p t) k) }
            (turned .entry false t s)))) := congrArg _ (bindOutlet_taken inTime taken)
    _ = _ := by rw [bound]; rfl

end Sys2Proof.Safety
end

section
/-! PROOFS. Firing schedules: the offer that a full schedule refuses (R47) and the window that ends (R48). -/

namespace Sys2Proof.Machine

open Sys2Proof.Safety

/-! ## The offer refused (R47) -/

/-- A full schedule refuses a window that meets none of its own. -/
theorem offerWindow_eq_none {n : Window} {ws : List Window} (unmet : ∀ w ∈ ws, ¬ Meets n w) (full : 8 ≤ ws.length) :
    offerWindow n ws = none := by
  have noneMet : ws.filter (windowsMeet n) = [] :=
    List.filter_eq_nil_iff.mpr fun w hw meets => unmet w hw ((windowsMeet_iff n w).mp meets)
  have noRoom : ¬ ws.length < Config.scheduleCapacity := Nat.not_lt.mpr full
  rw [offerWindow, noneMet]
  exact if_neg noRoom

/-- A window in time that the schedule refuses passes the record with SCHED_FULL and raises SCHEDULE_FULL. -/
theorem bindOutlet_refused {t p : Pos} {r : ItemRecord} {s : State} {k : OutletId} {len : BitVec 16}
    (inTime : ¬ Late t (firingWindowOf s p len k) s)
    (refused : offerWindow (firingWindowOf s p len k) (s.outlets.get k).schedule = none) :
    bindOutlet k t p len r s = raised 3 (resolveTo (passed s.relay.address p len (some .schedFull) r) s) := by
  rw [← passRecord_eq, bindOutlet, firingWindow_eq]
  simp only [refused, occur_eq]
  exact if_neg fun late => inTime ((late_iff _ _ _).mp late)

/-! ## The end of a window (R48) -/

/-- The windows that end at the belt position leave the schedule, the others keep their order. -/
theorem endWindows_eq {k : OutletId} {a b : List Window} {w : Window} {s : State} (schedule : (s.outlets.get k).schedule = a ++ w :: b)
    (ends : w.closes = s.position.pos) (others : ∀ v ∈ a ++ b, v.closes ≠ s.position.pos) :
    endWindows k s = drive (setSchedule k (a ++ b) s) := by
  have stay : ∀ v ∈ a ++ b, (!decide (v.closes = s.position.pos)) = true := fun v hv => by simpa using others v hv
  obtain ⟨stayA, stayB⟩ := List.forall_mem_append.mp stay
  have left : (a ++ w :: b).filter (fun v => !decide (v.closes = s.position.pos)) = a ++ b := by
    rw [List.filter_append, List.filter_cons_of_neg (by simp [ends]), List.filter_eq_self.mpr stayA, List.filter_eq_self.mpr stayB]
  rw [endWindows, refreshOutputs_eq, schedule, left]

/-- A window of the schedule ends where a forward count has brought the belt. -/
theorem windowEndDue_iff (s : State) (k : OutletId) :
    windowEndDue s k = true ↔ s.position.last = .forward ∧ ∃ w ∈ (s.outlets.get k).schedule, w.closes = s.position.pos := by
  simp [windowEndDue, reached]

end Sys2Proof.Machine

namespace Sys2Proof.Safety

open Sys2Proof.Machine

/-- Settles O25: the offer meets nothing and finds no room, so the record is passed where it stands. -/
theorem scheduleRefusesNinthWindow : Obligations.ScheduleRefusesNinthWindow := by
  intro t p pre post r s k h chooses inTime unmet full
  have ⟨hm, _, hf, _⟩ := h
  calc exec .entryTrailingEdge s
      = .next (bindOutlet k t p (measuredAs p t) r (turned .entry false t s)) :=
        exec_entryTrailingEdge_outlet h (routeRecord_of_chooses s r _ k chooses)
    _ = .next (raised 3 (resolveTo (passed s.relay.address p (measuredAs p t) (some .schedFull) r) (turned .entry false t s))) :=
        congrArg _ (bindOutlet_refused inTime (offerWindow_eq_none unmet full))
    _ = _ := by rw [resolveTo_eq (s := turned .entry false t s) _ hm hf]

/-- Settles O32: the window is due, and it alone ends here. -/
theorem firingWindowEndFreesPlace : Obligations.FiringWindowEndFreesPlace := by
  intro k a b o s forward schedule others
  have due : windowEndDue s k = true :=
    (windowEndDue_iff s k).mpr ⟨forward, ⟨o, s.position.pos⟩, by simp [schedule], rfl⟩
  calc exec (.firingWindowEnd k) s
      = .next (endWindows k s) := congrArg _ (if_pos due)
    _ = _ := congrArg _ (endWindows_eq schedule rfl others)

end Sys2Proof.Safety
end

section
/-! PROOFS. A count that has nothing left to take (R51, R67, R68, R72, R74). -/

namespace Sys2Proof.Machine

open Sys2Proof.Safety

theorem carryEye_eq (filter : Nat) (x : Eye) : carryEye filter x = eyeCarried filter x := by
  obtain ⟨pin, blocked, cand⟩ := x
  cases cand with
  | none => rfl
  | some c => rfl

/-- A count carries all six filters (R74). -/
theorem carryEyes_eq (s : State) : carryEyes s.config s.sensor = filtersCarried s := by
  simp only [carryEyes, filtersCarried, carryEye_eq]
  rfl

/-- The position, high-water position, direction mark, stall watch, filters and outputs after a count in the direction given. -/
theorem takeCount_eq (forward : Bool) (s : State) :
    takeCount forward s =
      drive { s with
        position := { s.position with
          pos := if forward then s.position.pos + 1 else s.position.pos - 1
          highWater :=
            if forward = true ∧ s.control.mode = .tracking ∧ AtOrPast (s.position.pos + 1) s.position.highWater then
              s.position.pos + 1
            else s.position.highWater
          last := if forward then .forward else .backward
          watch := s.position.watch.map (fun _ => ⟨0, false⟩) }
        sensor := filtersCarried s } := by
  rw [takeCount, refreshOutputs_eq, carryEyes_eq]
  cases forward with
  | true => simp only [Bool.true_and, Bool.and_eq_true, decide_eq_true_eq, atOrPast_iff, if_true, true_and]
  | false => simp

/-- While RESET is held a count moves the encoder pair only (R82). -/
theorem exec_forwardCount_held {s : State} (h : s.resetHeld = true) :
    exec .forwardCount s = .next (moveEncoder (encoderForward s.position.encA s.position.encB) s) := congrArg _ (if_pos h)

theorem exec_backwardCount_held {s : State} (h : s.resetHeld = true) :
    exec .backwardCount s = .next (moveEncoder (encoderBackward s.position.encA s.position.encB) s) := congrArg _ (if_pos h)

end Sys2Proof.Machine

namespace Sys2Proof.Safety

open Sys2Proof.Machine

/-- Settles O13: with nothing to settle, the count is taken from the state whose encoder pair has moved. -/
theorem countMovesBelt : Obligations.CountMovesBelt := by
  intro s
  refine ⟨fun released nothingDue => ⟨?_, ?_⟩, fun held => ⟨exec_forwardCount_held held, exec_backwardCount_held held⟩⟩
  · rw [exec_forwardCount released, settle_of_none nothingDue, takeCount_eq]
    simp only [true_and, if_true]
    rfl
  · rw [exec_backwardCount released, settle_of_none nothingDue, takeCount_eq]
    simp only [Bool.false_eq_true, false_and, if_false]
    rfl

end Sys2Proof.Safety
end

section
/-! PROOFS. The 1 ms time base: STALL, TEST_FIRE_END and the tick (R63, R72, R125, R126). -/

namespace Sys2Proof.Machine

open Sys2Proof.Safety

/-! ## STALL and TEST_FIRE_END -/

/-- A stall reported (R72). -/
theorem reportStall_eq (n : Nat) (s : State) :
    reportStall n s = raised 9 { s with position := { s.position with watch := some ⟨n, true⟩ } } := occur_eq .stall _

/-- An active watch that has not reported reports the stall; any other watch leaves STALL no event. -/
theorem exec_stall {w : Watch} {s : State} (h : s.position.watch = some w) :
    exec .stall s = .next (if w.reported = true then s else reportStall s.config.stallTime.toNat s) := by
  simp only [exec, execStall, h]

/-! ## The tick at the stall watch (R72) -/

/-- The watch at which a tick brings the elapsed time to stall_time_ms, the stall not being reported. -/
abbrev StallsNow (w : Watch) (s : State) : Prop := w.elapsed + 1 = s.config.stallTime.toNat ∧ w.reported = false

theorem tickWatch_idle {s : State} (h : s.position.watch = none) : tickWatch s = s := by rw [tickWatch, h]

theorem tickWatch_stalls {w : Watch} {s : State} (h : s.position.watch = some w) (now : StallsNow w s) :
    tickWatch s = reportStall (w.elapsed + 1) s := by
  simp only [tickWatch, h]
  exact if_pos now

theorem tickWatch_advances {w : Watch} {s : State} (h : s.position.watch = some w) (notNow : ¬ StallsNow w s) :
    tickWatch s = { s with position := { s.position with watch := some ⟨w.elapsed + 1, w.reported⟩ } } := by
  simp only [tickWatch, h]
  exact if_neg notNow

/-- A tick at the stall watch writes the watch and the sources only. -/
theorem tickWatch_frame (s : State) :
    tickWatch s =
      { s with
        position := { s.position with watch := (tickWatch s).position.watch }
        report := { s.report with sources := (tickWatch s).report.sources } } := by
  cases h : s.position.watch with
  | none =>
    rw [tickWatch_idle h]
  | some w =>
    by_cases now : StallsNow w s
    · rw [tickWatch_stalls h now]
      rfl
    · rw [tickWatch_advances h now]

/-! ## The tick at the ack timer (R125, R126) -/

/-- A tick at the ack timer, as the channel that it leaves. -/
def ackTicked (c : StationConfig) (ch : Channel) : Channel :=
  match ch.timer with
  | none => ch
  | some a =>
    if a.loaded ≤ a.elapsed + 1 then
      if ch.retry.toNat < c.noticeRetries.toNat then
        { ch with retry := ch.retry + 1, timer := none, slot := ch.outstanding.map Notice.frame }
      else { ch with state := .quiet, timer := none }
    else { ch with timer := some ⟨a.loaded, a.elapsed + 1⟩ }

/-- A tick at the ack timer writes the notice channel only. -/
theorem tickAck_eq (s : State) :
    tickAck s = { s with report := { s.report with channel := ackTicked s.config s.report.channel } } := by
  unfold tickAck ackTicked takeExpiry
  cases h : s.report.channel.timer with
  | none => rfl
  | some a =>
    dsimp only
    split
    · split <;> rfl
    · rfl

section

variable {c : StationConfig} {ch : Channel} {a : AckTimer}

theorem ackTicked_idle (h : ch.timer = none) : ackTicked c ch = ch := by rw [ackTicked, h]

theorem ackTicked_runs (h : ch.timer = some a) (early : a.elapsed + 1 < a.loaded) :
    ackTicked c ch = { ch with timer := some ⟨a.loaded, a.elapsed + 1⟩ } := by
  simp only [ackTicked, h]
  exact if_neg (Nat.not_le.mpr early)

theorem ackTicked_retries (h : ch.timer = some a) (expired : a.loaded ≤ a.elapsed + 1)
    (left : ch.retry.toNat < c.noticeRetries.toNat) :
    ackTicked c ch = { ch with retry := ch.retry + 1, timer := none, slot := ch.outstanding.map Notice.frame } := by
  simp only [ackTicked, h, if_pos expired, if_pos left]

theorem ackTicked_quiets (h : ch.timer = some a) (expired : a.loaded ≤ a.elapsed + 1)
    (spent : c.noticeRetries.toNat ≤ ch.retry.toNat) : ackTicked c ch = { ch with state := .quiet, timer := none } := by
  simp only [ackTicked, h, if_pos expired, if_neg (Nat.not_lt.mpr spent)]

end

/-! ## The tick as a whole -/

/-- A tick writes the outlets, the stall watch, the sources and the notice channel. -/
theorem tick_frame (s : State) :
    tick s =
      { s with
        outlets := (tick s).outlets
        position := { s.position with watch := (tickWatch s).position.watch }
        report := { s.report with
          sources := (tickWatch s).report.sources, channel := ackTicked s.config s.report.channel } } := by
  have fires : tick s = { tickAck (tickWatch s) with outlets := (tick s).outlets } := rfl
  rw [fires, tickAck_eq, tickWatch_frame s]

/-- A tick counts the test fire of each outlet down, and its output follows (R51, R63). -/
theorem tickFires_outlet (s : State) (k : OutletId) :
    (tickFires s).outlets.get k =
      ⟨(s.outlets.get k).schedule, driven (tickFires s) k, tickFire (s.outlets.get k).testFire⟩ := by
  have output : ((tickFires s).outlets.get k).output = driven (tickFires s) k := output_refreshOutputs _ k
  rw [← output]
  simp [tickFires]

theorem tick_outlet (s : State) (k : OutletId) :
    (tick s).outlets.get k =
      ⟨(s.outlets.get k).schedule, driven (tick s) k, tickFire (s.outlets.get k).testFire⟩ := by
  have kept : (tickAck (tickWatch s)).outlets = s.outlets := by rw [tickAck_eq, tickWatch_frame]
  rw [tick, tickFires_outlet, kept]

end Sys2Proof.Machine

namespace Sys2Proof.Safety

open Sys2Proof.Machine

/-- Settles O33. -/
theorem stallAndTestFireEnd : Obligations.StallAndTestFireEnd := by
  intro s
  refine ⟨fun n watch => ?_, fun idle => ?_, fun k n fire => ?_, fun k noFire => ?_⟩
  · rw [exec_stall watch, if_neg (by simp), reportStall_eq]
  · rcases idle with watch | ⟨n, watch⟩
    · simp only [exec, execStall, watch]
    · rw [exec_stall watch, if_pos rfl]
  · rw [exec, execTestFireEnd, if_pos (by simp [fire]), refreshOutputs_eq]
  · rw [exec, execTestFireEnd, if_neg (by simp [noFire])]

/-- Settles O2: the tick is the stall watch's, the ack timer's and the test fires', each with its own effect. -/
theorem emptyQueueTicks : Obligations.EmptyQueueTicks := by
  intro s empty
  have ticks : step s = .next (tick s) := by rw [step, empty]
  have watch : (tick s).position.watch = (tickWatch s).position.watch := by rw [tick_frame]
  have sources : (tick s).report.sources = (tickWatch s).report.sources := by rw [tick_frame]
  have channel : (tick s).report.channel = ackTicked s.config s.report.channel := by rw [tick_frame]
  refine ⟨tick s, ticks, ?_, fun k => ?_, fun k idle => ?_, fun k n fire => ?_, fun idle => ?_, fun w active => ⟨?_, ?_⟩,
    fun idle => ?_, fun a running => ⟨?_, ?_, ?_⟩⟩
  · rw [watch, sources, channel]
    exact tick_frame s
  · rw [tick_outlet]
    exact ⟨rfl, rfl⟩
  · rw [tick_outlet, idle]
    rfl
  · rw [tick_outlet, fire]
    rfl
  · rw [watch, sources, tickWatch_idle idle]
    exact ⟨idle, rfl⟩
  · intro elapsed unreported
    rw [watch, sources, tickWatch_stalls active ⟨elapsed, unreported⟩, reportStall_eq]
    exact ⟨rfl, rfl⟩
  · intro notNow
    have notNow : ¬ StallsNow w s := fun ⟨elapsed, unreported⟩ => by simp_all
    rw [watch, sources, tickWatch_advances active notNow]
    exact ⟨rfl, rfl⟩
  · rw [channel, ackTicked_idle idle]
  · exact fun early => by rw [channel, ackTicked_runs running early]
  · exact fun expired left => by rw [channel, ackTicked_retries running expired left]
  · exact fun expired spent => by rw [channel, ackTicked_quiets running expired spent]

end Sys2Proof.Safety
end

section
/-! PROOFS. FIRE_TEST (R51, R63). -/

namespace Sys2Proof.Machine

open Sys2Proof.Safety

theorem outletOfNat_val (k : OutletId) : outletOfNat k.val = some k := dif_pos k.isLt

theorem outletOfNat_eq_none {n : Nat} (h : 4 ≤ n) : outletOfNat n = none := dif_neg (Nat.not_lt.mpr h)

section

variable {o : Byte} {ms : BitVec 16} {s : State} {k : OutletId}

/-- Outside READY nothing is fired. -/
theorem fireTestRule_mode (num : Byte) (args : List Byte) (h : s.control.mode ≠ .ready) :
    fireTestRule num args s = answered num 0x40 0x02 [modeByte s.control.mode] s := by
  rw [← modeByte_eq]
  exact if_pos h

/-- In READY an outlet number that names no outlet is refused. -/
theorem fireTestRule_noOutlet (num : Byte) (ready : s.control.mode = .ready) (h : 4 ≤ o.toNat) :
    fireTestRule num (o :: two ms) s = answered num 0x40 0x05 [] s := by
  simp only [fireTestRule, ready, outletOfNat_eq_none h, reply_eq]
  rfl

/-- In READY the tests of an outlet's test fire, in order: the outlet present and the duration in range, no test fire of it running. -/
theorem fireTestRule_outlet (num : Byte) (ready : s.control.mode = .ready) (h : o.toNat = k.val) :
    fireTestRule num (o :: two ms) s =
      if s.config.outletsPresent.val ≤ k.val ∨ ms.toNat < 1 ∨ 1000 < ms.toNat then answered num 0x40 0x05 [] s
      else if (s.outlets.get k).testFire.isSome = true then busied num 0x40 s
      else answered num 0x40 0x00 [] (startTestFire k ms.toNat s) := by
  simp only [fireTestRule, ready, h, outletOfNat_val, of16_two, outletPresent, reply_eq, replyBusy_eq]
  simp [requestByte, statusCode, or_assoc]

theorem startTestFire_eq (k : OutletId) (n : Nat) (s : State) :
    startTestFire k n s = drive { s with outlets := s.outlets.set k { s.outlets.get k with testFire := some n } } :=
  refreshOutputs_eq _

end

end Sys2Proof.Machine

namespace Sys2Proof.Safety

open Sys2Proof.Machine

/-- Settles O60: the request reaches its owning rule, whose tests are those of R63. -/
theorem fireTestStarts : Obligations.FireTestStarts := by
  intro addr num o ms s ht
  have run : exec (.fireTest addr num (o :: two ms)) s = .next (fireTestRule num (o :: two ms) (heard .u s)) :=
    exec_of_takes (num := num) (args := o :: two ms) .fireTest rfl ht (.inr rfl)
  rw [run]
  refine ⟨fun notReady => ?_, fun ready => ⟨fun bad => ?_, fun k hk present least most => ?_⟩⟩
  · rw [fireTestRule_mode num _ (by simpa using notReady), heard_control]
  · have ready : (heard .u s).control.mode = .ready := by simpa using ready
    by_cases named : 4 ≤ o.toNat
    · rw [fireTestRule_noOutlet num ready named]
    · rw [fireTestRule_outlet (k := ⟨o.toNat, Nat.not_le.mp named⟩) num ready rfl, if_pos]
      rw [heard_config]
      rcases bad with far | absent | zero | long
      · exact absurd far named
      · exact .inl absent
      · exact .inr (.inl (by simp [zero]))
      · exact .inr (.inr long)
  · have ready : (heard .u s).control.mode = .ready := by simpa using ready
    rw [fireTestRule_outlet num ready hk, if_neg (by rw [heard_config]; omega), heard_outlets]
    refine ⟨fun running => ?_, fun idle => ?_⟩
    · rw [if_pos running]
    · rw [if_neg (by simp [idle]), startTestFire_eq, heard_outlets]

end Sys2Proof.Safety
end

section
/-! PROOFS. The snapshot of a record, byte by byte (R173, R181, Table 11-8). -/

namespace Sys2Proof.Machine

open Sys2Proof.Safety

/-! ## A word as its bytes -/

/-- The low `n` bytes of a word, the most significant first. -/
def wordBytes {w : Nat} (n : Nat) (x : BitVec w) : List Byte := (List.range n).map (fun j => x.extractLsb' (8 * (n - 1 - j)) 8)

/-- The bytes of two words set side by side, the lower of whole bytes. -/
theorem wordBytes_append {v w k : Nat} (m n : Nat) (x : BitVec v) (y : BitVec w) (hw : w = 8 * n) (hk : k = m + n) :
    wordBytes k (x ++ y) = wordBytes m x ++ wordBytes n y := by
  subst hw hk
  simp only [wordBytes, List.range_add, List.map_append, List.map_map]
  congr 1
  · refine List.map_congr_left fun j hj => ?_
    have hj : j < m := List.mem_range.mp hj
    rw [BitVec.extractLsb'_append_eq_of_le (by omega)]
    congr 1
    omega
  · refine List.map_congr_left fun j hj => ?_
    have hj : j < n := List.mem_range.mp hj
    rw [Function.comp_apply, BitVec.extractLsb'_append_eq_of_add_le (by omega)]
    congr 1
    omega

theorem wordBytes_one (x : Byte) : wordBytes 1 x = [x] := by simp [wordBytes]

theorem be16_eq (x : BitVec 16) : be16 x = wordBytes 2 x := rfl

theorem be24_eq (x : BitVec 24) : be24 x = wordBytes 3 x := rfl

theorem be32_eq (x : BitVec 32) : be32 x = wordBytes 4 x := rfl

/-- A word of eight bytes as its two halves. -/
theorem wordBytes_eight (x : BitVec 64) : wordBytes 8 x = be32 (x.extractLsb' 32 32) ++ be32 (x.extractLsb' 0 32) := by
  have halves : x = x.extractLsb' 32 32 ++ x.extractLsb' 0 32 := by
    refine BitVec.eq_of_getLsbD_eq fun i hi => ?_
    rw [BitVec.getLsbD_append, BitVec.getLsbD_extractLsb', BitVec.getLsbD_extractLsb']
    split
    · simp_all
    · rw [Nat.add_sub_of_le (by omega)]
      simp [show i - 32 < 32 by omega]
  exact (congrArg _ halves).trans (wordBytes_append 4 4 _ _ rfl rfl)

theorem toNat_append_eq {v w : Nat} (x : BitVec v) (y : BitVec w) : (x ++ y).toNat = x.toNat * 2 ^ w + y.toNat := by
  rw [BitVec.toNat_append, ← Nat.shiftLeft_add_eq_or_of_lt y.isLt, Nat.shiftLeft_eq]

/-! ## The fields of a snapshot -/

section

variable (r : ItemRecord)

/-- P as the count of its way from the arrival position, 0 where there is no P. -/
def offsetField : BitVec 24 := ((stageFields r.stage).p.map fun p => (p - r.arrival).setWidth 24).getD 0

/-- L, 0 where there is no L. -/
def lengthField : BitVec 16 := (stageFields r.stage).len.getD 0

/-- The outlet or pass reason code, then the destination code, 0 where absent. -/
def markField : BitVec 16 :=
  BitVec.ofNat 16 ((stageFields r.stage).mark.getD 0 * 4096 + (r.dest.map BitVec.toNat).getD 0)

/-- The state code, the record's flags, the presence of P and of L. -/
def stateField : Byte :=
  byteOf (64 * (stageFields r.stage).code + 32 * bit r.flags.stray + 16 * bit r.flags.adopted + 8 * bit r.flags.forcePass
    + 4 * bit r.flags.trailFull + 2 * bit (stageFields r.stage).p.isSome + bit (stageFields r.stage).len.isSome)

/-- The presence of the outlet or reason, the number of notes, the six note places. -/
def trailField : BitVec 64 :=
  BitVec.ofNat 64 (bit (stageFields r.stage).mark.isSome * 2 ^ 63 + r.trail.length * 2 ^ 60 + trailBits r.trail)

/-- The model's snapshot is the bytes of its fields. -/
theorem snapshotBytes_eq :
    snapshotBytes r =
      wordBytes 24 ((r.tag ++ r.plan ++ r.hop ++ r.arrival ++ (offsetField r ++ lengthField r ++ markField r ++ stateField r))
        ++ trailField r) := by
  have front : wordBytes 8 (r.tag ++ r.plan ++ r.hop ++ r.arrival) = be16 r.tag ++ [r.plan] ++ [r.hop] ++ be32 r.arrival := by
    rw [wordBytes_append 4 4 _ _ rfl rfl, wordBytes_append 3 1 _ _ rfl rfl, wordBytes_append 2 1 _ _ rfl rfl, wordBytes_one,
      wordBytes_one, be16_eq, be32_eq]
  have middle : wordBytes 8 (offsetField r ++ lengthField r ++ markField r ++ stateField r) =
      be24 (offsetField r) ++ be16 (lengthField r) ++ be16 (markField r) ++ [stateField r] := by
    rw [wordBytes_append 7 1 _ _ rfl rfl, wordBytes_append 5 2 _ _ rfl rfl, wordBytes_append 3 2 _ _ rfl rfl, wordBytes_one,
      be24_eq, be16_eq, be16_eq]
  rw [wordBytes_append 16 8 _ _ rfl rfl, wordBytes_append 8 8 _ _ rfl rfl, front, middle, wordBytes_eight]
  cases h : (stageFields r.stage).p with
  | none =>
    simp only [snapshotBytes, snapshotMarkBytes, offsetField, lengthField, markField, stateField, trailField, h, Option.map_none,
      Option.getD_none, List.append_assoc, List.cons_append, List.nil_append]
  | some p =>
    simp only [snapshotBytes, snapshotMarkBytes, offsetField, lengthField, markField, stateField, trailField, h, Option.map_some,
      Option.getD_some, List.append_assoc, List.cons_append, List.nil_append]

/-! ## The fields as Table 11-8 packs them -/

/-- The flags of a record in four bits. -/
def flagBits (f : Flags) : BitVec 4 :=
  BitVec.ofBool f.stray ++ BitVec.ofBool f.adopted ++ BitVec.ofBool f.forcePass ++ BitVec.ofBool f.trailFull

/-- Bytes 8 to 15 of a snapshot, by the fields of the record's stage. -/
theorem stageBits_eq :
    stageBits r =
      (offsetField r ++ lengthField r ++ BitVec.ofNat 4 ((stageFields r.stage).mark.getD 0) ++ r.dest.getD 0
        ++ BitVec.ofNat 2 (stageFields r.stage).code ++ flagBits r.flags
        ++ BitVec.ofNat 2 (2 * bit (stageFields r.stage).p.isSome + bit (stageFields r.stage).len.isSome),
       BitVec.ofBool (stageFields r.stage).mark.isSome) := by
  obtain ⟨tag, dest, plan, flags, hop, trail, arrival, stage⟩ := r
  cases stage with
  | expected => rfl
  | onEye p => rfl
  | boundOut p len k w => rfl
  | boundThrough p len why =>
    cases why with
    | none => rfl
    | some why => rfl

theorem reasonCode_lt (why : Reason) : reasonCode why < 16 := by cases why <;> decide

/-- The code of the outlet or the pass reason fits four bits. -/
theorem mark_lt (x : Stage) : (stageFields x).mark.getD 0 < 16 := by
  cases x with
  | expected => exact Nat.zero_lt_succ _
  | onEye p => exact Nat.zero_lt_succ _
  | boundOut p len k w => exact k.isLt.trans (by decide)
  | boundThrough p len why =>
    cases why with
    | none => exact Nat.zero_lt_succ _
    | some why => exact reasonCode_lt why

theorem code_lt (x : Stage) : (stageFields x).code < 4 := by cases x <;> simp [stageFields]

theorem bit_le (b : Bool) : bit b ≤ 1 := by cases b <;> decide

theorem toNat_ofBool_eq (b : Bool) : (BitVec.ofBool b).toNat = bit b := by cases b <;> rfl

theorem markField_eq : BitVec.ofNat 4 ((stageFields r.stage).mark.getD 0) ++ r.dest.getD 0 = markField r := by
  have mark := mark_lt r.stage
  have dest : (r.dest.map BitVec.toNat).getD 0 = (r.dest.getD 0).toNat := by cases r.dest <;> rfl
  have low := (r.dest.getD 0).isLt
  apply BitVec.eq_of_toNat_eq
  rw [toNat_append_eq, markField, dest, BitVec.toNat_ofNat, BitVec.toNat_ofNat]
  omega

theorem stateField_eq :
    BitVec.ofNat 2 (stageFields r.stage).code ++ flagBits r.flags
      ++ BitVec.ofNat 2 (2 * bit (stageFields r.stage).p.isSome + bit (stageFields r.stage).len.isSome) = stateField r := by
  have code := code_lt r.stage
  have stray := bit_le r.flags.stray
  have adopted := bit_le r.flags.adopted
  have forcePass := bit_le r.flags.forcePass
  have trailFull := bit_le r.flags.trailFull
  have p := bit_le (stageFields r.stage).p.isSome
  have len := bit_le (stageFields r.stage).len.isSome
  apply BitVec.eq_of_toNat_eq
  simp only [flagBits, stateField, byteOf, toNat_append_eq, toNat_ofBool_eq, BitVec.toNat_ofNat]
  omega

/-- A note in its ten bits. -/
theorem toNat_note (n : Note) : (n.addr ++ BitVec.ofNat 4 (reasonCode n.reason)).toNat = noteBits n := by
  have reason := reasonCode_lt n.reason
  simp only [toNat_append_eq, BitVec.toNat_ofNat, noteBits]
  omega

theorem trailBits_eq : trailBits r.trail = (List.range 6).foldl (fun acc i => acc * 1024 + (notePlace r i).toNat) 0 := by
  unfold trailBits
  congr 1
  funext acc i
  unfold notePlace
  cases r.trail[i]? with
  | none => rfl
  | some n => exact congrArg _ (toNat_note n).symm

/-- The trail's part of a snapshot of at most six notes, after any `front`. -/
theorem trailField_eq {w : Nat} (front : BitVec w) (h : r.trail.length ≤ 6) :
    (front ++ BitVec.ofBool (stageFields r.stage).mark.isSome ++ BitVec.ofNat 3 r.trail.length ++ notePlace r 0 ++ notePlace r 1
      ++ notePlace r 2 ++ notePlace r 3 ++ notePlace r 4 ++ notePlace r 5).toNat = (front ++ trailField r).toNat := by
  have mark := bit_le (stageFields r.stage).mark.isSome
  have note (i : Nat) := (notePlace r i).isLt
  have note0 := note 0
  have note1 := note 1
  have note2 := note 2
  have note3 := note 3
  have note4 := note 4
  have note5 := note 5
  simp only [trailField, trailBits_eq, List.range_succ, List.range_zero, List.nil_append, List.foldl_append, List.foldl_cons,
    List.foldl_nil, toNat_append_eq, toNat_ofBool_eq, BitVec.toNat_ofNat]
  omega

/-- The two readings of a snapshot record agree (Table 11-8). -/
theorem snapshotBytes_eq_recordBytes (h : r.trail.length ≤ 6) : snapshotBytes r = recordBytes r := by
  have stage : (stageBits r).1 = offsetField r ++ lengthField r ++ markField r ++ stateField r := by
    rw [stageBits_eq, ← markField_eq, ← stateField_eq]
    apply BitVec.eq_of_toNat_eq
    simp only [toNat_append_eq]
    omega
  have word : r.tag ++ r.plan ++ r.hop ++ r.arrival ++ (stageBits r).1 ++ (stageBits r).2 ++ BitVec.ofNat 3 r.trail.length
      ++ notePlace r 0 ++ notePlace r 1 ++ notePlace r 2 ++ notePlace r 3 ++ notePlace r 4 ++ notePlace r 5 =
      r.tag ++ r.plan ++ r.hop ++ r.arrival ++ (offsetField r ++ lengthField r ++ markField r ++ stateField r) ++ trailField r := by
    apply BitVec.eq_of_toNat_eq
    rw [stage, stageBits_eq]
    exact trailField_eq r _ h
  rw [snapshotBytes_eq, ← word]
  rfl

end

end Sys2Proof.Machine
end

section
/-! PROOFS. READ_OBJECT of the ranges (R45, R100, R101, R171, R173, R183, Table 10-2). -/

namespace Sys2Proof.Machine

open Sys2Proof.Safety

/-! ## The reply of READ_OBJECT -/

theorem toNat_of16 (h l : Byte) : (of16 h l).toNat = 256 * h.toNat + l.toNat := by
  rw [of16, toNat_append_eq]
  omega

section

variable {num space i1 i0 n : Byte} {s : State}

/-- An object that is there is returned under its space, index and count; only PORT_STATUS clears flags with it (R147, R171). -/
theorem readObjectRule_done {found : Nat} {data : List Byte} (hs : space ≠ 7)
    (object : objectData s space.toNat (256 * i1.toNat + i0.toNat) n.toNat = some (found, data)) :
    readObjectRule num [space, i1, i0, n] s =
      answered num 0x01 0x00 ([space, i1, i0, BitVec.ofNat 8 found] ++ data) s := by
  simp only [readObjectRule, toNat_of16, object, if_neg hs]
  rfl

/-- A range that the space does not have is refused. -/
theorem readObjectRule_badArg (object : objectData s space.toNat (256 * i1.toNat + i0.toNat) n.toNat = none) :
    readObjectRule num [space, i1, i0, n] s = answered num 0x01 0x05 [] s := by
  simp only [readObjectRule, toNat_of16, object]
  rfl

end

/-! ## The ranges -/

section

variable {s : State} {index count : Nat}

theorem routeData_eq (id : BankId) (least : 1 ≤ count) (most : count ≤ 16) (fits : index + count ≤ 1024) :
    routeData s id index count =
      some (count, (List.range (4 * count)).map (fun j => memRead (bankOf s.route id).mem (4 * index + j))) :=
  if_pos ⟨Nat.lt_of_lt_of_le (Nat.lt_add_of_pos_right least) fits, least, most, fits⟩

theorem routeData_eq_none (id : BankId) (h : count = 0 ∨ 16 < count ∨ 1024 < index + count) : routeData s id index count = none :=
  if_neg fun ⟨_, least, most, fits⟩ => by
    simp only [Config.bankEntries] at fits
    omega

/-- The records from an index on, as Table 11-8 packs them (R173). -/
theorem queueData_eq (trails : ∀ r ∈ s.tracking, r.trail.length ≤ 6) (start : index < 32) (least : 1 ≤ count) (most : count ≤ 3) :
    queueData s index count =
      some (((s.tracking.drop index).take count).length,
        BitVec.ofNat 8 s.tracking.length :: ((s.tracking.drop index).take count).flatMap recordBytes) := by
  have packed : ((s.tracking.drop index).take count).flatMap snapshotBytes =
      ((s.tracking.drop index).take count).flatMap recordBytes :=
    List.flatMap_congr fun r hr => snapshotBytes_eq_recordBytes r (trails r (List.mem_of_mem_drop (List.mem_of_mem_take hr)))
  rw [← packed]
  exact if_pos ⟨start, least, most⟩

theorem queueData_eq_none (h : 32 ≤ index ∨ count = 0 ∨ 3 < count) : queueData s index count = none :=
  if_neg fun ⟨start, least, most⟩ => by
    simp only [Config.trackingCapacity] at start
    omega

theorem scheduleData_eq (k : OutletId) : scheduleData s k = scheduleBytes (s.outlets.get k) := by
  have state : ∀ output fires : Bool, byteOf (bit output + 2 * bit fires) = (if output then 1 else 0) ||| (if fires then 2 else 0) := by
    decide
  simp only [scheduleData, scheduleBytes, state]
  rfl

end

/-- The space code of a bank (Table 10-2). -/
def routeSpace (id : BankId) : Byte := 3 + bankByte id

/-- The object of a bank's space is the bank's range of entries. -/
theorem objectData_route (s : State) (id : BankId) (index count : Nat) :
    objectData s (routeSpace id).toNat index count = routeData s id index count := by
  cases id <;> rfl

/-- The object of the QUEUE_SNAPSHOT space is the range of records. -/
theorem objectData_queue (s : State) (index count : Nat) : objectData s 5 index count = queueData s index count := rfl

/-- The object of the SCHEDULES space is one outlet's schedule. -/
theorem objectData_schedules (s : State) (k : OutletId) : objectData s 6 k.val 1 = some (1, scheduleBytes (s.outlets.get k)) := by
  simp [objectData, outletOfNat_val, scheduleData_eq]

theorem objectData_schedules_none {s : State} {index count : Nat} (h : 4 ≤ index ∨ count ≠ 1) : objectData s 6 index count = none := by
  rcases Nat.lt_or_ge index 4 with named | unnamed
  · have count : count ≠ 1 := h.resolve_left (Nat.not_le.mpr named)
    simp [objectData, outletOfNat, named, count]
  · simp [objectData, outletOfNat_eq_none unnamed]

end Sys2Proof.Machine

namespace Sys2Proof.Safety

open Sys2Proof.Machine

section

variable {addr num i1 i0 n : Byte} {s : State}

theorem exec_readObject {c : Instr} {space : Byte} (hc : requestOf c = some (addr, num, 0x01, [space, i1, i0, n]))
    (ht : Takes addr num 4 s) : exec c s = .next (readObjectRule num [space, i1, i0, n] (heard .u s)) :=
  exec_of_takes .readObject hc ht (.inr rfl)

theorem requestOf_readRoute (id : BankId) :
    requestOf (.readRoute id addr num [i1, i0, n]) = some (addr, num, 0x01, [routeSpace id, i1, i0, n]) := by
  cases id <;> rfl

end

/-- Settles O51: each space's object is the range asked for, or there is none. -/
theorem rangesRead : Obligations.RangesRead := by
  intro addr num i1 i0 n s ht
  dsimp only
  have zero : n = 0 ↔ n.toNat = 0 := BitVec.toNat_eq
  have one : n = 1 ↔ n.toNat = 1 := BitVec.toNat_eq
  have kept : BitVec.ofNat 8 n.toNat = n := by simp
  refine ⟨fun id => ⟨fun least most fits => ?_, fun bad => ?_⟩, fun trails start least most => ?_, fun bad => ?_,
    fun k hk single => ?_, fun bad => ?_⟩
  · have space : routeSpace id ≠ 7 := by cases id <;> decide
    have object := (objectData_route (heard .u s) id _ _).trans (routeData_eq id least most fits)
    rw [exec_readObject (requestOf_readRoute id) ht, readObjectRule_done space object, kept, heard_route]
    rfl
  · rw [zero] at bad
    rw [exec_readObject (requestOf_readRoute id) ht,
      readObjectRule_badArg ((objectData_route _ id _ _).trans (routeData_eq_none id bad))]
  · have object := (objectData_queue (heard .u s) _ _).trans (queueData_eq (by simpa using trails) start least most)
    rw [exec_readObject (space := 5) rfl ht, readObjectRule_done (space := 5) (by decide) object, heard_tracking]
    rfl
  · rw [zero] at bad
    rw [exec_readObject (space := 5) rfl ht,
      readObjectRule_badArg (space := 5) ((objectData_queue _ _ _).trans (queueData_eq_none bad))]
  · subst single
    have object := objectData_schedules (heard .u s) k
    rw [← hk] at object
    rw [exec_readObject (space := 6) rfl ht, readObjectRule_done (space := 6) (by decide) object, heard_outlets]
    rfl
  · rw [exec_readObject (space := 6) rfl ht,
      readObjectRule_badArg (space := 6) (objectData_schedules_none (bad.imp_right (mt one.mpr)))]

end Sys2Proof.Safety
end

section
/-! PROOFS. Resets and the inputs of the sensor unit: the cold state and its release (R82, R116), the pin of an eye (R73, R74) and of a
lane-full input (R80). -/

namespace Sys2Proof.Machine

open Sys2Proof.Safety

/-! ## Resets -/

theorem eyeLevel_blockedLow (pin : Bool) : eyeLevel false pin = !pin := by cases pin <;> rfl

theorem laneLevel_activeHigh (pin : Bool) : laneLevel false pin = pin := by cases pin <;> rfl

theorem releaseReset_eq (s : State) : releaseReset s = begun s := rfl

/-- The inputs sampled under the power-on polarities: blocked-low, active-high (R175). -/
theorem sampleInputs_powerOn (s : State) (held : Bool) : sampleInputs StationConfig.powerOn s.sensor = (coldState held s).sensor := by
  have confirm (k : OutletId) : eyeHigh StationConfig.powerOn (.confirm k) = false := PerOutlet.get_all false k
  simp only [sampleInputs, readLanes, confirm, show eyeHigh StationConfig.powerOn .entry = false from rfl,
    show eyeHigh StationConfig.powerOn .exit = false from rfl, show StationConfig.powerOn.laneLow = false from rfl, eyeLevel_blockedLow,
    laneLevel_activeHigh]
  rfl

theorem coldHeld_eq (s : State) : coldHeld s = coldState true s := by
  rw [coldHeld, sampleInputs_powerOn s true]
  rfl

/-- The pins sampled again at the release give what the cold state held already. -/
theorem releaseReset_coldState (s : State) : releaseReset (coldState true s) = coldState false s := by
  have sampled : sampleInputs StationConfig.powerOn (coldState true s).sensor = (coldState false s).sensor :=
    sampleInputs_powerOn (coldState true s) false
  have config : (coldState true s).config = StationConfig.powerOn := rfl
  rw [releaseReset, config, sampled]
  rfl

end Sys2Proof.Machine

namespace Sys2Proof.Safety

open Sys2Proof.Machine

/-- Settles O11. -/
theorem resetsLeaveColdState : Obligations.ResetsLeaveColdState := by
  intro s
  have powerOn : exec .powerOn s = .next (if s.resetHeld then coldHeld s else releaseReset (coldHeld s)) := rfl
  have released : exec .resetReleased s = .next (if s.resetHeld then releaseReset s else s) := rfl
  rw [powerOn, released, coldHeld_eq, releaseReset_coldState, releaseReset_eq]
  refine ⟨fun h => by rw [h]; rfl, fun h => by rw [h]; rfl, congrArg _ (coldHeld_eq s), fun s₀ h => ?_, fun h => by rw [h]; rfl,
    fun h => by rw [h]; rfl⟩
  rw [h, ← releaseReset_eq, releaseReset_coldState]
  rfl

end Sys2Proof.Safety
end

section
/-! PROOFS. The direction table of the encoder pair (R66). -/

namespace Sys2Proof.Machine

/-- Nothing that settles a count moves the belt. -/
theorem pos_takeDue (d : Due) (s : State) : (takeDue d s).position.pos = s.position.pos := by
  have fault : ∀ c, (takeFault c s).position.pos = s.position.pos := fun c => by
    by_cases hm : s.control.mode = .tracking
    · rw [takeFault_eq c s hm, trackLost_position]
    · exact congrArg (fun t : State => t.position.pos) (if_neg hm)
  cases d with
  | edge e =>
    dsimp only [takeDue, takeWaitingEdge]
    split
    · exact (Framed.trackEdge e true _ _).pos
    · split
      · exact (Framed.trackEdge e false _ _).pos
      · rfl
  | approachClose r => exact (Framed.removeRecord _ r _ _ s).pos
  | confirmClose r => exact (Framed.closeResolved _ r s).pos
  | exitClose r => exact (Framed.closeResolved _ r s).pos
  | windowEnd k => rfl
  | blocked e => exact fault _
  | reversal => exact fault _

theorem pos_settleFuel (n : Nat) (s : State) : (settleFuel n s).position.pos = s.position.pos := by
  induction n generalizing s with
  | zero => rfl
  | succ n ih =>
    cases h : nextDue s with
    | none => rw [settleFuel_of_none h]
    | some d => rw [settleFuel_succ h, ih, pos_takeDue]

theorem pos_settle (s : State) : (settle s).position.pos = s.position.pos := pos_settleFuel _ s

end Sys2Proof.Machine

namespace Sys2Proof.Safety

open Sys2Proof.Machine

/-- Settles O12: the events that a count settles first leave the position alone, and the pair moves as R66's table gives it. -/
theorem encoderDirectionTable : Obligations.EncoderDirectionTable := by
  rintro s a b rfl rfl released
  refine ⟨⟨_, exec_forwardCount released, congrArg (· + 1) (pos_settle s), ?_⟩,
    ⟨_, exec_backwardCount released, congrArg (· - 1) (pos_settle s), ?_⟩, rfl⟩
  · show encoderForward s.position.encA s.position.encB = _
    cases s.position.encA <;> cases s.position.encB <;> rfl
  · show encoderBackward s.position.encA s.position.encB = _
    cases s.position.encA <;> cases s.position.encB <;> rfl

end Sys2Proof.Safety
end

section
/-! PROOFS. The pins of the eyes and of the lane-full inputs (R73, R74, R80, R82). -/

namespace Sys2Proof.Machine

open Sys2Proof.Safety

theorem setEye_eyeOf (u : SensorUnit) (e : EyeId) : setEye u e (eyeOf u e) = u := by
  cases e with
  | entry => rfl
  | exit => rfl
  | confirm k => fin_cases k <;> rfl

section

variable {e : EyeId} {high : Bool} {s : State}

/-- Where no candidate has run its filter length, no accepted edge waits. -/
theorem takeWaitingEdge_of_unripe (h : ∀ c, (eyeOf s.sensor e).cand = some c → c.ripe = false) : takeWaitingEdge e s = s := by
  have none (b : Bool) : edgeDue s e b = none := edgeDue_none fun x hw => by
    obtain ⟨c, hc, waits⟩ := Option.map_eq_some_iff.mp hw
    have unripe := h c hc
    simp_all
  simp only [takeWaitingEdge, none]

theorem exec_eyePinChange_same (same : (eyeOf s.sensor e).pin = high) : exec (.eyePinChange e high) s = .next s :=
  congrArg Host.Outcome.next (if_pos same)

/-- While RESET is held the pin is kept and nothing is sampled (R82). -/
theorem exec_eyePinChange_held (held : s.resetHeld = true) :
    exec (.eyePinChange e high) s = .next { s with sensor := setEye s.sensor e { eyeOf s.sensor e with pin := high } } := by
  by_cases same : (eyeOf s.sensor e).pin = high
  · rw [exec_eyePinChange_same same, ← same, setEye_eyeOf]
  · exact congrArg Host.Outcome.next ((if_neg same).trans (if_pos held))

/-- A pin that changes: the edge that waits at the eye is taken first, then the level sampled (R74). -/
theorem exec_eyePinChange (released : s.resetHeld = false) (changed : (eyeOf s.sensor e).pin ≠ high) :
    exec (.eyePinChange e high) s = .next (changeEyePin e high (takeWaitingEdge e s)) :=
  congrArg Host.Outcome.next ((if_neg changed).trans (if_neg (by simp [released])))

/-- The candidate after a level is sampled: none at the stable level, the one held kept, else one opened at the position (R74). -/
theorem sampleEye_eq (filter : Nat) (pos : Pos) (level : Bool) (x : Eye) :
    sampleEye filter pos level x =
      ⟨x.pin, x.blocked,
        if level = x.blocked then none
        else match x.cand with
          | some c => some c
          | none => some ⟨level, pos, 0, decide (filter = 0)⟩⟩ := by
  unfold sampleEye
  split
  · rfl
  · cases x.cand <;> rfl

end

end Sys2Proof.Machine

namespace Sys2Proof.Safety

open Sys2Proof.Machine

/-- Settles O17: an edge that waits is taken by the pin change as by its own command, after which none waits. -/
theorem eyePinChangeOpensCandidate : Obligations.EyePinChangeOpensCandidate := by
  intro e high s
  refine ⟨fun released changed unripe => ?_, fun blocked x released changed waits => ?_, exec_eyePinChange_same, exec_eyePinChange_held⟩
  · rw [exec_eyePinChange released changed, takeWaitingEdge_of_unripe unripe, changeEyePin, sampleEye_eq]
    rfl
  · have taken : takeWaitingEdge e s = trackEdge e blocked x (turned e blocked x s) :=
      (takeWaitingEdge_eq waits).trans (takeEdge_eq e blocked x s)
    have frame := Framed.trackEdge e blocked x (turned e blocked x s)
    have eye : eyeOf (trackEdge e blocked x (turned e blocked x s)).sensor e = ⟨(eyeOf s.sensor e).pin, blocked, none⟩ := by
      rw [frame.sensor, eyeOf_turned, if_pos rfl]
    refine ⟨_, exec_edge waits, ?_, by rw [eye], by rw [eye]⟩
    rw [exec_eyePinChange released changed, taken,
      exec_eyePinChange (frame.resetHeld.trans released) (by rw [eye]; exact changed),
      takeWaitingEdge_of_unripe fun c hc => by rw [eye] at hc; cases hc]

/-- Settles O18. -/
theorem laneFullFollowsPin : Obligations.LaneFullFollowsPin := by
  intro k high s
  have level (low : Bool) : laneLevel low high = if low then !high else high := by cases low <;> cases high <;> rfl
  refine ⟨fun released => ?_, fun held => ?_⟩
  · rw [← level]
    simp [exec, execLaneFullChange, released]
  · simp [exec, execLaneFullChange, held]

end Sys2Proof.Safety
end

section
/-! PROOFS. READ_OBJECT of the objects read whole, byte by byte (R81, R100, R131, R147, R172, Table 11-6). -/

namespace Sys2Proof.Machine

open Sys2Proof.Safety

/-! ## IDENT and CONFIG -/

theorem identData_eq (s : State) : identData s = identBytes s := by
  rw [identBytes, ← modeByte_eq, ← causeByte_eq]
  rfl

theorem strayPolicyByte_eq (p : StrayPolicy) :
    strayPolicyByte p = match p with
      | .pass => 0x00
      | .outlet k => 0x10#8 ||| BitVec.ofNat 8 k.val := by
  cases p with
  | pass => rfl
  | outlet k => fin_cases k <;> rfl

theorem byteOf_bit (b : Bool) : byteOf (bit b) = if b then 1 else 0 := by cases b <;> rfl

/-- The eyes' and lanes' polarities in one byte (Table 11-7). -/
theorem polarityByte_eq (c : StationConfig) :
    polarityByte c =
      (if c.entryHigh then 1 else 0) ||| (if c.exitHigh then 2 else 0) ||| (if c.confirmHigh.get 0 then 4 else 0)
        ||| (if c.confirmHigh.get 1 then 8 else 0) ||| (if c.confirmHigh.get 2 then 16 else 0)
        ||| (if c.confirmHigh.get 3 then 32 else 0) ||| (if c.laneLow then 64 else 0) := by
  have packed : ∀ a b c d e f g : Bool,
      byteOf (bit a + 2 * bit b + 4 * bit c + 8 * bit d + 16 * bit e + 32 * bit f + 64 * bit g) =
        (if a then 1 else 0) ||| (if b then 2 else 0) ||| (if c then 4 else 0) ||| (if d then 8 else 0)
          ||| (if e then 16 else 0) ||| (if f then 32 else 0) ||| (if g then 64 else 0) := by decide
  exact packed _ _ _ _ _ _ _

/-- CONFIG returns the eight groups in order (Table 11-6). -/
theorem configBytes_eq (c : StationConfig) : configBytes c = (List.range 8).flatMap (groupBytes c) := by
  rw [configBytes, strayPolicyByte_eq, polarityByte_eq, byteOf_bit, byteOf_bit]
  rfl

/-! ## BANK_STATUS -/

theorem referenceCount_eq (s : State) (id : BankId) : referenceCount s id = references s id := by
  unfold referenceCount references
  cases h : bankPlan (bankOf s.route id) with
  | none =>
    refine (List.countP_eq_zero.mpr fun r _ => ?_).symm
    cases r.stage <;> simp
  | some p =>
    refine List.countP_congr fun r _ => ?_
    cases hr : r.stage <;> simp [isExpected, isOnEye, hr, eq_comm]

theorem segStateCode_lt (x : SegState) : segStateCode x < 4 := by cases x <;> decide

/-- Four two-bit codes in a byte, the first highest. -/
theorem packed_segs (a b c d : SegState) :
    byteOf (64 * segStateCode a + 16 * segStateCode b + 4 * segStateCode c + segStateCode d) =
      (segByte a <<< 6) ||| (segByte b <<< 4) ||| (segByte c <<< 2) ||| segByte d := by
  have packed : ∀ a b c d : Fin 4,
      byteOf (64 * a.val + 16 * b.val + 4 * c.val + d.val) =
        (byteOf a.val <<< 6) ||| (byteOf b.val <<< 4) ||| (byteOf c.val <<< 2) ||| byteOf d.val := by decide
  simp only [← segByte_eq]
  exact packed ⟨_, segStateCode_lt a⟩ ⟨_, segStateCode_lt b⟩ ⟨_, segStateCode_lt c⟩ ⟨_, segStateCode_lt d⟩

/-- Four segments to a byte (R100). -/
theorem packSegs_eq (n : Nat) (l : List SegState) (h : l.length = 4 * n) :
    packSegs l = (List.range n).map (fun j =>
      (segByte (l.getD (4 * j) .blank) <<< 6) ||| (segByte (l.getD (4 * j + 1) .blank) <<< 4)
        ||| (segByte (l.getD (4 * j + 2) .blank) <<< 2) ||| segByte (l.getD (4 * j + 3) .blank)) := by
  induction n generalizing l with
  | zero => rw [List.length_eq_zero_iff.mp h]; rfl
  | succ n ih =>
    match l, h with
    | a :: b :: c :: d :: rest, h =>
      have rest_length : rest.length = 4 * n := by simpa [Nat.mul_succ] using h
      rw [packSegs, packed_segs, ih rest rest_length, List.range_succ_eq_map, List.map_cons, List.map_map]
      rfl

theorem bankStatusData_eq (s : State) (id : BankId) : bankStatusData s id = bankBytes s id := by
  simp only [bankStatusData, bankBytes, referenceCount_eq, bankStateByte_eq, packSegs_eq 16 _ (Vector.length_toList)]
  rfl

/-! ## PORT_STATUS and SENSOR_STATUS -/

theorem portByte_eq (l : LinkPort) : portByte l = linkByte l := by
  have packed : ∀ a b c d e f : Bool,
      byteOf (128 * bit a + 16 * bit b + 8 * bit c + 4 * bit d + 2 * bit e + bit f) =
        (if a then 128 else 0) ||| (if b then 16 else 0) ||| (if c then 8 else 0) ||| (if d then 4 else 0)
          ||| (if e then 2 else 0) ||| (if f then 1 else 0) := by decide
  exact packed _ _ _ _ _ _

theorem sensorStatusData_eq (s : State) : sensorStatusData s = sensorBytes s := by
  have eyes : ∀ a b c d e f : Bool,
      byteOf (bit a + 2 * bit b + [bit c * 2 ^ 2, bit d * 2 ^ 3, bit e * 2 ^ 4, bit f * 2 ^ 5].sum) =
        (if a then 1 else 0) ||| (if b then 2 else 0) ||| (if c then 4 else 0) ||| (if d then 8 else 0)
          ||| (if e then 16 else 0) ||| (if f then 32 else 0) := by decide
  have lanes : ∀ a b c d : Bool, byteOf [bit a * 2 ^ 0, bit b * 2 ^ 1, bit c * 2 ^ 2, bit d * 2 ^ 3].sum =
      (if a then 1 else 0) ||| (if b then 2 else 0) ||| (if c then 4 else 0) ||| (if d then 8 else 0) := by decide
  rw [sensorBytes, ← eyes, ← lanes]
  rfl

/-! ## NOTICE_STATUS -/

/-- A word with the bits set for which `f` holds. -/
def bitsWhere {n : Nat} (f : Fin n → Bool) : BitVec 16 :=
  (List.finRange n).foldl (fun w i => if f i then w ||| (1#16 <<< i.val) else w) 0

/-- The sum of the bits' values. -/
def bitSum {n : Nat} (f : Fin n → Bool) : Nat := ((List.finRange n).map (fun i => bit (f i) * 2 ^ i.val)).sum

theorem bitsWhere_succ {n : Nat} (f : Fin (n + 1) → Bool) :
    bitsWhere f =
      if f (Fin.last n) then bitsWhere (fun i => f i.castSucc) ||| (1#16 <<< n) else bitsWhere (fun i => f i.castSucc) := by
  simp only [bitsWhere, List.finRange_succ_last, List.foldl_append, List.foldl_map, List.foldl_cons, List.foldl_nil, Fin.val_castSucc,
    Fin.val_last]

theorem bitSum_succ {n : Nat} (f : Fin (n + 1) → Bool) :
    bitSum f = bitSum (fun i => f i.castSucc) + bit (f (Fin.last n)) * 2 ^ n := by
  simp [bitSum, List.finRange_succ_last, Function.comp_def]

theorem bitSum_lt {n : Nat} (f : Fin n → Bool) : bitSum f < 2 ^ n := by
  induction n with
  | zero => exact Nat.one_pos
  | succ n ih =>
    have low := ih fun i => f i.castSucc
    have high : bit (f (Fin.last n)) * 2 ^ n ≤ 2 ^ n := by simpa using Nat.mul_le_mul_right (2 ^ n) (bit_le (f (Fin.last n)))
    rw [bitSum_succ]
    omega

/-- A bit above all the others is set by adding its value. -/
theorem bitsWhere_eq {n : Nat} (hn : n ≤ 16) (f : Fin n → Bool) : bitsWhere f = BitVec.ofNat 16 (bitSum f) := by
  induction n with
  | zero => rfl
  | succ n ih =>
    rw [bitsWhere_succ, bitSum_succ, ih (by omega)]
    cases f (Fin.last n) with
    | false => simp [bit]
    | true =>
      have place : 1#16 <<< n = BitVec.ofNat 16 (2 ^ n * 1) := BitVec.eq_of_toNat_eq (by simp [Nat.shiftLeft_eq])
      rw [if_pos rfl, place, ← BitVec.ofNat_or, Nat.or_comm, ← Nat.two_pow_add_eq_or_of_lt (bitSum_lt _), Nat.mul_comm, Nat.add_comm]
      rfl

/-- Bit 0 masked away, and no other. -/
theorem bitsWhere_and (f : Fin 10 → Bool) : bitsWhere f &&& 0xFFFE = bitsWhere (fun i => decide (i ≠ 0) && f i) := by
  refine (List.foldl_hom (init := 0#16) (· &&& 0xFFFE#16) fun w i => ?_).symm
  have later : ∀ i : Fin 10, i ≠ 0 → 1#16 <<< i.val &&& 0xFFFE#16 = 1#16 <<< i.val := by decide
  cases hf : f i with
  | false => simp [hf]
  | true =>
    by_cases hi : i = 0
    · subst hi
      simp [hf, BitVec.and_or_distrib_right]
    · simp [hf, hi, BitVec.and_or_distrib_right, later i hi]

/-- The sources in priority order are the places of the report unit's list (Table 7-2). -/
theorem allSources_places : allSources.map sourceIndex = List.finRange 10 := rfl

theorem map_allSources {α : Type} (f : Fin 10 → α) : allSources.map (fun src => f (sourceIndex src)) = (List.finRange 10).map f := by
  rw [← allSources_places, List.map_map]
  rfl

theorem sourceIndex_eq (src : Source) : byteOf (sourceIndex src).val = BitVec.ofNat 8 (allSources.idxOf src) := by cases src <;> rfl

theorem sourceIndex_eq_zero (src : Source) : sourceIndex src = 0 ↔ src = .trackLost := by cases src <;> decide

theorem sourceWord_eq (f : Fin 10 → Bool) : sourceWord (fun src => f (sourceIndex src)) = bitsWhere f := by
  rw [sourceWord, map_allSources fun i => bit (f i) * 2 ^ i.val]
  exact (bitsWhere_eq (by decide) f).symm

theorem pendingWord_eq (r : ReportUnit) :
    sourceWord (fun src => (r.sources[sourceIndex src]).pending) = sourceBits SourceState.pending r.sources :=
  sourceWord_eq fun i => r.sources[i].pending

/-- TRACK_LOST, which cannot be masked, reads as a clear bit (R122, R131). -/
theorem maskWord_eq (r : ReportUnit) : maskWord r = sourceBits SourceState.masked r.sources &&& 0xFFFE := by
  have first : (fun src => decide (src ≠ .trackLost) && (r.sources[sourceIndex src]).masked) =
      fun src => decide (sourceIndex src ≠ 0) && (r.sources[sourceIndex src]).masked := by
    funext src
    rw [decide_eq_decide.mpr (not_congr (sourceIndex_eq_zero src)).symm]
  rw [maskWord, first, sourceWord_eq fun i => decide (i ≠ 0) && r.sources[i].masked, ← bitsWhere_and]
  rfl

theorem sourceCounts_eq (v : Vector SourceState 10) :
    allSources.map (fun src => (v[sourceIndex src]).count) = v.toList.map SourceState.count := by
  have places : (List.finRange 10).map (fun i => v[i]) = v.toList := by
    rw [← List.ofFn_eq_map, ← Vector.toList_ofFn]
    exact congrArg Vector.toList Vector.ofFn_getElem
  rw [map_allSources fun i => v[i].count, ← places, List.map_map]
  rfl

theorem noticeStatusData_eq (s : State) : noticeStatusData s = noticeBytes s := by
  simp only [noticeStatusData, noticeBytes, channelByte_eq, sourceIndex_eq, pendingWord_eq, maskWord_eq, sourceCounts_eq, portsByte_eq]
  cases s.report.channel.timer <;> rfl

/-! ## The objects that are read whole -/

/-- The bytes of an object read whole, by its space code (Table 10-2). -/
def wholeBytes (s : State) (space : Nat) : Option (List Byte) :=
  match space with
  | 0 => some (identBytes s)
  | 1 => some ((List.range 8).flatMap (groupBytes s.config))
  | 2 => some (bankBytes s .a ++ bankBytes s .b)
  | 7 => some [linkByte s.links.u, linkByte s.links.d]
  | 8 => some (noticeBytes s)
  | 9 => some (sensorBytes s)
  | _ => none

/-- Such an object is there at index 0 and count 1 only (R171). -/
theorem objectData_whole {s : State} {space : Nat} {bytes : List Byte} (h : wholeBytes s space = some bytes) (index count : Nat) :
    objectData s space index count = if index = 0 ∧ count = 1 then some (1, bytes) else none := by
  unfold wholeBytes at h
  split at h <;> cases h
  · rw [← identData_eq]; rfl
  · rw [← configBytes_eq]; rfl
  · rw [← bankStatusData_eq, ← bankStatusData_eq]; rfl
  · rw [← portByte_eq, ← portByte_eq]; rfl
  · rw [← noticeStatusData_eq]; rfl
  · rw [← sensorStatusData_eq]; rfl

section

variable {num : Byte} {s : State}

theorem readObjectRule_whole {space : Byte} {bytes : List Byte} (hs : space ≠ 7) (whole : wholeBytes s space.toNat = some bytes) :
    readObjectRule num [space, 0, 0, 1] s = answered num 0x01 0x00 ([space, 0, 0, 1] ++ bytes) s :=
  readObjectRule_done hs (objectData_whole whole _ _)

/-- PORT_STATUS is returned as it stands, and its flags are cleared with it (R147). -/
theorem readObjectRule_portStatus :
    readObjectRule num [7, 0, 0, 1] s =
      answered num 0x01 0x00 [7, 0, 0, 1, linkByte s.links.u, linkByte s.links.d]
        { s with links :=
            ⟨{ s.links.u with flags := ⟨false, false, false, false, false⟩ },
             { s.links.d with flags := ⟨false, false, false, false, false⟩ }⟩ } := by
  rw [← portByte_eq, ← portByte_eq]
  rfl

end

end Sys2Proof.Machine

namespace Sys2Proof.Safety

open Sys2Proof.Machine

/-- Anything but index 0 and count 1 is refused (R171). -/
theorem exec_readWhole_badArg {addr num space i1 i0 n : Byte} {c : Instr} {s : State} {bytes : List Byte}
    (hc : requestOf c = some (addr, num, 0x01, [space, i1, i0, n])) (ht : Takes addr num 4 s)
    (whole : wholeBytes (heard .u s) space.toNat = some bytes) (bad : i1 ≠ 0 ∨ i0 ≠ 0 ∨ n ≠ 1) :
    exec c s = .next (answered num 0x01 0x05 [] (heard .u s)) := by
  have none : ¬ (256 * i1.toNat + i0.toNat = 0 ∧ n.toNat = 1) := fun ⟨index, count⟩ => by
    have i1_zero : i1 = 0 := BitVec.eq_of_toNat_eq (show i1.toNat = 0 by omega)
    have i0_zero : i0 = 0 := BitVec.eq_of_toNat_eq (show i0.toNat = 0 by omega)
    have n_one : n = 1 := BitVec.eq_of_toNat_eq count
    simp_all
  rw [exec_readObject hc ht, readObjectRule_badArg ((objectData_whole whole _ _).trans (if_neg none))]

/-- Settles O50: each object is there at index 0 and count 1, as Table 11-6 packs it, and only PORT_STATUS clears anything. -/
theorem wholeObjectsRead : Obligations.WholeObjectsRead := by
  intro addr num i1 i0 n s ht
  dsimp only
  refine ⟨?_, fun bad c hc => ?_⟩
  · rintro rfl rfl rfl
    have ident : identBytes (heard .u s) = identBytes s := by simp [identBytes]
    have bank (id : BankId) : bankBytes (heard .u s) id = bankBytes s id := by simp [bankBytes, references]
    have sensor : sensorBytes (heard .u s) = sensorBytes s := by simp [sensorBytes]
    refine ⟨?_, ?_, ?_, ?_, ?_, ?_⟩
    · rw [exec_readObject (space := 0) rfl ht, readObjectRule_whole (by decide) rfl, ident]
    · rw [exec_readObject (space := 1) rfl ht, readObjectRule_whole (by decide) rfl, heard_config]
    · rw [exec_readObject (space := 2) rfl ht, readObjectRule_whole (by decide) rfl, bank, bank]
      rfl
    · rw [exec_readObject (space := 7) rfl ht, readObjectRule_portStatus]
    · rw [exec_readObject (space := 8) rfl ht, readObjectRule_whole (by decide) rfl]
    · rw [exec_readObject (space := 9) rfl ht, readObjectRule_whole (by decide) rfl, sensor]
  · simp only [List.mem_cons, List.not_mem_nil, or_false] at hc
    rcases hc with rfl | rfl | rfl | rfl | rfl | rfl <;> exact exec_readWhole_badArg rfl ht rfl bad

end Sys2Proof.Safety
end

section
/-! PROOFS. The value bytes of a configuration group, written and read back (R174, R184, Tables 10-3 and 11-7). -/

namespace Sys2Proof.Machine

open Sys2Proof.Safety

/-! ## Fields of a group as their bytes -/

theorem three_of24 (h m l : Byte) : three (of24 h m l) = [h, m, l] :=
  calc three (of24 h m l) = wordBytes 3 (h ++ m ++ l) := be24_eq _
    _ = [h, m, l] := by
      rw [wordBytes_append 2 1 _ _ rfl rfl, wordBytes_append 1 1 _ _ rfl rfl, wordBytes_one, wordBytes_one, wordBytes_one]
      rfl

theorem two_of16 (h l : Byte) : two (of16 h l) = [h, l] :=
  calc two (of16 h l) = wordBytes 2 (h ++ l) := be16_eq _
    _ = [h, l] := by
      rw [wordBytes_append 1 1 _ _ rfl rfl, wordBytes_one, wordBytes_one]
      rfl

theorem of24_eq_zero (h m l : Byte) : of24 h m l = 0 ↔ h = 0 ∧ m = 0 ∧ l = 0 := by
  constructor
  · intro zero
    have bytes : [h, m, l] = [0, 0, 0] := by rw [← three_of24, zero]; rfl
    simpa using bytes
  · rintro ⟨rfl, rfl, rfl⟩
    rfl

/-- A stray policy's byte is 0x00 or 0x10 to 0x13. -/
theorem strayPolicyOfByte_eq_none (b : Byte) : strayPolicyOfByte b = none ↔ b ≠ 0x00 ∧ b.toNat / 4 ≠ 4 := by
  revert b
  decide

theorem strayPolicyByte_ofByte {b : Byte} {p : StrayPolicy} (h : strayPolicyOfByte b = some p) : strayPolicyByte p = b := by
  have all : ∀ b : Byte, ∀ p ∈ strayPolicyOfByte b, strayPolicyByte p = b := by decide
  exact all b p h

/-! ## The first field out of range -/

/-- What the writing of a group must answer: the first value out of range, or a configuration that keeps the values and leaves the other
groups alone. -/
def GroupAnswer (g : Nat) (vals : List Byte) (c : StationConfig) : Nat ⊕ StationConfig → Prop
  | .inl i => OutOfRange g vals i ∧ ∀ j, j < i → ¬ OutOfRange g vals j
  | .inr d => (∀ i, ¬ OutOfRange g vals i) ∧ groupBytes d g = keptBytes g vals ∧ ∀ j, j ≠ g → groupBytes d j = groupBytes c j

theorem firstOutOfRange_eq_some {tests : List Bool} {i : Nat} (h : firstOutOfRange tests = some i) :
    tests[i]? = some false ∧ ∀ j, j < i → tests[j]? ≠ some false := by
  obtain ⟨bound, fails, before⟩ := List.findIdx?_eq_some_iff_getElem.mp h
  refine ⟨?_, fun j hj => ?_⟩
  · rw [List.getElem?_eq_getElem bound]
    simpa using fails
  · rw [List.getElem?_eq_getElem (hj.trans bound)]
    simpa using before j hj

theorem firstOutOfRange_eq_none {tests : List Bool} (h : firstOutOfRange tests = none) : ∀ b ∈ tests, b = true := fun b hb => by
  simpa using List.findIdx?_eq_none_iff.mp h b hb

/-- A group is written through the tests of its fields, one test for each value that may be out of range. -/
theorem groupAnswer_of_tests {g : Nat} {vals : List Byte} {c d : StationConfig} {answer : Nat ⊕ StationConfig} (tests : List Bool)
    (refused : ∀ i, firstOutOfRange tests = some i → answer = .inl i) (taken : firstOutOfRange tests = none → answer = .inr d)
    (ranges : ∀ i, OutOfRange g vals i ↔ tests[i]? = some false)
    (kept : (∀ b ∈ tests, b = true) → groupBytes d g = keptBytes g vals) (others : ∀ j, j ≠ g → groupBytes d j = groupBytes c j) :
    GroupAnswer g vals c answer := by
  cases h : firstOutOfRange tests with
  | some i =>
    obtain ⟨out, before⟩ := firstOutOfRange_eq_some h
    rw [refused i h]
    exact ⟨(ranges i).mpr out, fun j hj => mt (ranges j).mp (before j hj)⟩
  | none =>
    have pass := firstOutOfRange_eq_none h
    rw [taken h]
    refine ⟨fun i out => ?_, kept pass, others⟩
    exact Bool.false_ne_true (pass false (List.mem_of_getElem? ((ranges i).mp out)))

/-! ## The groups -/

section

variable {g : Byte} (c : StationConfig)

theorem groupBytes_station :
    groupBytes c 0 =
      [BitVec.ofNat 8 c.outletsPresent.val, strayPolicyByte c.strayPolicy, if c.terminal then 1 else 0,
        if c.tallyPasses then 1 else 0] := by
  rw [strayPolicyByte_eq]
  rfl

theorem groupBytes_eyes :
    groupBytes c 1 = [c.entryFilter.setWidth 8, c.exitFilter.setWidth 8, c.confirmFilter.setWidth 8, polarityByte c] := by
  rw [polarityByte_eq]
  rfl

/-- The group of an outlet. -/
theorem groupBytes_outlet (k : OutletId) : groupBytes c (3 + k.val) = outletGroupBytes (c.outlets.get k) := by
  fin_cases k <;> rfl

theorem writeGroup_station (hg : g.toNat = 0) (op sp te tp : Byte) :
    GroupAnswer 0 [op, sp, te, tp] c (writeGroup g [op, sp, te, tp] c) := by
  have count : ∀ b : Byte, b.toNat < 5 → BitVec.ofNat 8 (b.toNat % 5) = b := by decide
  have flag : ∀ b : Byte, b.toNat ≤ 1 → (if decide (b = 1) then 1 else 0) = b := by decide
  refine groupAnswer_of_tests
    [decide (op.toNat < 5), (strayPolicyOfByte sp).isSome, decide (te.toNat ≤ 1), decide (tp.toNat ≤ 1)]
    (fun i h => by simp only [writeGroup, hg, h]) (fun h => by simp only [writeGroup, hg, h]; rfl) (fun i => ?_) (fun pass => ?_)
    (fun j hj => ?_)
  · match i with
    | 0 => simp [OutOfRange, Nat.succ_le_iff]
    | 1 => simpa [OutOfRange] using (strayPolicyOfByte_eq_none sp).symm
    | 2 => simp [OutOfRange]
    | 3 => simp [OutOfRange]
    | _ + 4 => simp [OutOfRange]
  · simp only [List.forall_mem_cons, decide_eq_true_eq, Option.isSome_iff_exists] at pass
    obtain ⟨outlets, ⟨policy, stray⟩, terminal, tally, -⟩ := pass
    simp only [groupBytes_station, stray, Option.getD_some, strayPolicyByte_ofByte stray, count op outlets, flag te terminal,
      flag tp tally]
    rfl
  · unfold groupBytes
    split <;> trivial

theorem writeGroup_eyes (hg : g.toNat = 1) (ef xf cf pol : Byte) :
    GroupAnswer 1 [ef, xf, cf, pol] c (writeGroup g [ef, xf, cf, pol] c) := by
  have filter : ∀ b : Byte, b.toNat ≤ 15 → (b.setWidth 4).setWidth 8 = b := by decide
  have polarities : ∀ b : Byte,
      byteOf (bit (b.getLsbD 0) + 2 * bit (b.getLsbD 1) + 4 * bit (b.getLsbD 2) + 8 * bit (b.getLsbD 3) + 16 * bit (b.getLsbD 4)
        + 32 * bit (b.getLsbD 5) + 64 * bit (b.getLsbD 6)) = b &&& 0x7F := by decide
  refine groupAnswer_of_tests [decide (ef.toNat ≤ 15), decide (xf.toNat ≤ 15), decide (cf.toNat ≤ 15)]
    (fun i h => by simp only [writeGroup, hg, h]) (fun h => by simp only [writeGroup, hg, h]; rfl) (fun i => ?_) (fun pass => ?_)
    (fun j hj => ?_)
  · match i with
    | 0 => simp [OutOfRange]
    | 1 => simp [OutOfRange]
    | 2 => simp [OutOfRange]
    | _ + 3 => simp [OutOfRange]
  · simp only [List.forall_mem_cons, decide_eq_true_eq] at pass
    obtain ⟨entry, exit, confirm, -⟩ := pass
    simp only [groupBytes_eyes, filter ef entry, filter xf exit, filter cf confirm]
    exact congrArg (fun p => [ef, xf, cf, p]) (polarities pol)
  · unfold groupBytes
    split <;> trivial

theorem writeGroup_windows (hg : g.toNat = 2) (a2 a1 a0 b2 b1 b0 c2 c1 c0 d2 d1 d0 e2 e1 e0 r1 r0 : Byte) :
    GroupAnswer 2 [a2, a1, a0, b2, b1, b0, c2, c1, c0, d2, d1, d0, e2, e1, e0, r1, r0] c
      (writeGroup g [a2, a1, a0, b2, b1, b0, c2, c1, c0, d2, d1, d0, e2, e1, e0, r1, r0] c) := by
  refine groupAnswer_of_tests [true, true, true, true, decide (of24 e2 e1 e0 ≠ 0), true]
    (fun i h => by simp only [writeGroup, hg, h]) (fun h => by simp only [writeGroup, hg, h]; rfl) (fun i => ?_) (fun _ => ?_)
    (fun j hj => ?_)
  · match i with
    | 0 => simp [OutOfRange]
    | 1 => simp [OutOfRange]
    | 2 => simp [OutOfRange]
    | 3 => simp [OutOfRange]
    | 4 => simpa [OutOfRange] using (of24_eq_zero e2 e1 e0).symm
    | 5 => simp [OutOfRange]
    | _ + 6 => simp [OutOfRange]
  · simp only [groupBytes, three_of24, two_of16]
    rfl
  · unfold groupBytes
    split <;> trivial

theorem writeGroup_times (hg : g.toNat = 7) (s1 s0 nt nr : Byte) :
    GroupAnswer 7 [s1, s0, nt, nr] c (writeGroup g [s1, s0, nt, nr] c) := by
  have retries : ∀ b : Byte, b.toNat ≤ 7 → (b.setWidth 3).setWidth 8 = b := by decide
  refine groupAnswer_of_tests [true, decide (nt ≠ 0), decide (nr.toNat ≤ 7)]
    (fun i h => by simp only [writeGroup, hg, h]) (fun h => by simp only [writeGroup, hg, h]; rfl) (fun i => ?_) (fun pass => ?_)
    (fun j hj => ?_)
  · match i with
    | 0 => simp [OutOfRange]
    | 1 => simp [OutOfRange]
    | 2 => simp [OutOfRange]
    | _ + 3 => simp [OutOfRange]
  · simp only [List.forall_mem_cons, decide_eq_true_eq] at pass
    obtain ⟨-, -, range, -⟩ := pass
    simp only [groupBytes, two_of16, retries nr range]
    rfl
  · unfold groupBytes
    split <;> trivial

theorem writeGroup_outlet (k : OutletId) (hg : g.toNat = 3 + k.val) (f2 f1 f0 l2 l1 l0 m2 m1 m0 w1 w0 : Byte) :
    GroupAnswer (3 + k.val) [f2, f1, f0, l2, l1, l0, m2, m1, m0, w1, w0] c
      (writeGroup g [f2, f1, f0, l2, l1, l0, m2, m1, m0, w1, w0] c) := by
  have written : writeGroup g [f2, f1, f0, l2, l1, l0, m2, m1, m0, w1, w0] c =
      .inr { c with outlets := c.outlets.set k ⟨of24 f2 f1 f0, of24 l2 l1 l0, of24 m2 m1 m0, of16 w1 w0⟩ } := by
    fin_cases k <;> simp only [writeGroup, hg]
  rw [written]
  refine groupAnswer_of_tests [] (fun i h => nomatch h) (fun _ => rfl) (fun i => ?_) (fun _ => ?_) (fun j hj => ?_)
  · fin_cases k <;> simp [OutOfRange]
  · have kept : keptBytes (3 + k.val) [f2, f1, f0, l2, l1, l0, m2, m1, m0, w1, w0] = [f2, f1, f0, l2, l1, l0, m2, m1, m0, w1, w0] :=
      if_neg (by omega)
    rw [groupBytes_outlet, PerOutlet.get_set_self, kept]
    exact congrArg₂ _ (congrArg₂ _ (congrArg₂ _ (three_of24 ..) (three_of24 ..)) (three_of24 ..)) (two_of16 ..)
  · by_cases outlet : 3 ≤ j ∧ j - 3 < 4
    · obtain ⟨i, rfl⟩ : ∃ i : OutletId, j = 3 + i.val := ⟨⟨j - 3, outlet.2⟩, (Nat.add_sub_of_le outlet.1).symm⟩
      rw [groupBytes_outlet, groupBytes_outlet, PerOutlet.get_set_of_ne _ (fun h => hj (by rw [h]))]
    · unfold groupBytes
      split <;> first | rfl | omega

end

/-! ## The group of a number -/

theorem groupLength_eq (g : Byte) : groupLength g = if g.toNat ≤ 7 then some (groupSize g.toNat) else none := by
  revert g
  decide

/-- The writing of a group of the right length answers as its fields' ranges say (R174, R184). -/
theorem writeGroup_answer {g : Byte} {vals : List Byte} (c : StationConfig) (known : g.toNat ≤ 7)
    (length : vals.length = groupSize g.toNat) : GroupAnswer g.toNat vals c (writeGroup g vals c) := by
  have groups : g.toNat = 0 ∨ g.toNat = 1 ∨ g.toNat = 2 ∨ g.toNat = 7 ∨ ∃ k : OutletId, g.toNat = 3 + k.val := by
    by_cases outlet : 3 ≤ g.toNat ∧ g.toNat - 3 < 4
    · exact .inr (.inr (.inr (.inr ⟨⟨g.toNat - 3, outlet.2⟩, (Nat.add_sub_of_le outlet.1).symm⟩)))
    · omega
  rcases groups with hg | hg | hg | hg | ⟨k, hg⟩
  · rw [hg] at length ⊢
    match vals, length with
    | [op, sp, te, tp], _ => exact writeGroup_station c hg op sp te tp
  · rw [hg] at length ⊢
    match vals, length with
    | [ef, xf, cf, pol], _ => exact writeGroup_eyes c hg ef xf cf pol
  · rw [hg] at length ⊢
    match vals, length with
    | [a2, a1, a0, b2, b1, b0, c2, c1, c0, d2, d1, d0, e2, e1, e0, r1, r0], _ =>
      exact writeGroup_windows c hg a2 a1 a0 b2 b1 b0 c2 c1 c0 d2 d1 d0 e2 e1 e0 r1 r0
  · rw [hg] at length ⊢
    match vals, length with
    | [s1, s0, nt, nr], _ => exact writeGroup_times c hg s1 s0 nt nr
  · have eleven : groupSize (3 + k.val) = 11 := by fin_cases k <;> rfl
    rw [hg] at length ⊢
    rw [eleven] at length
    match vals, length with
    | [f2, f1, f0, l2, l1, l0, m2, m1, m0, w1, w0], _ => exact writeGroup_outlet c k hg f2 f1 f0 l2 l1 l0 m2 m1 m0 w1 w0

end Sys2Proof.Machine
end

section
/-! PROOFS. WRITE_CONFIG (R76, R80, R174, R176): what a configuration in force does at the sensor unit, and the request. -/

namespace Sys2Proof.Machine

open Sys2Proof.Safety

/-! ## One eye and its blocked-since position -/

/-- The blocked-since position of an eye that has one (R77). -/
def sinceOf (u : SensorUnit) : EyeId → Option Pos
  | .entry => some u.entrySince
  | .exit => some u.exitSince
  | .confirm _ => none

theorem sinceOf_setEye (u : SensorUnit) (e d : EyeId) (x : Eye) : sinceOf (setEye u e x) d = sinceOf u d := by
  cases e <;> cases d <;> rfl

theorem sinceOf_setSince (u : SensorUnit) (e d : EyeId) (p : Pos) :
    sinceOf (setSince u e p) d = if d = e then (sinceOf u d).map fun _ => p else sinceOf u d := by
  cases e <;> cases d <;> simp [sinceOf, setSince]

/-- A leading edge's stamp is the blocked-since position of its eye (R77). -/
theorem sinceOf_acceptEdge (e : EyeId) (blocked : Bool) (x : Pos) (u : SensorUnit) (d : EyeId) :
    sinceOf (acceptEdge e blocked x u) d = if d = e ∧ blocked = true then (sinceOf u d).map fun _ => x else sinceOf u d := by
  cases blocked with
  | false => simp [acceptEdge, sinceOf_setEye]
  | true => simp [acceptEdge, sinceOf_setSince, sinceOf_setEye]

/-- The edge that waits at an eye, if one does, accepted. -/
def acceptWaiting (e : EyeId) (u : SensorUnit) : SensorUnit :=
  match (eyeOf u e).cand with
  | some k => if k.ripe then acceptEdge e k.blocked k.stamp u else u
  | none => u

/-! ## What an accepted edge makes of one eye -/

/-- What the sensor unit holds of one eye. -/
abbrev eyeView (u : SensorUnit) (e : EyeId) : Eye × Option Pos := (eyeOf u e, sinceOf u e)

/-- An eye whose edge is accepted (R74, R77). -/
def acceptedView (blocked : Bool) (x : Pos) (v : Eye × Option Pos) : Eye × Option Pos :=
  (⟨v.1.pin, blocked, none⟩, if blocked = true then v.2.map fun _ => x else v.2)

/-- An eye whose waiting edge, if it has one, is accepted. -/
def waitingView (v : Eye × Option Pos) : Eye × Option Pos :=
  match v.1.cand with
  | some k => if k.ripe then acceptedView k.blocked k.stamp v else v
  | none => v

/-- An eye whose polarity or filter length is written (R76). -/
def reconfiguredView (old new : StationConfig) (pos : Pos) (e : EyeId) (v : Eye × Option Pos) : Eye × Option Pos :=
  if eyeHigh old e = eyeHigh new e ∧ eyeFilter old e = eyeFilter new e then v
  else if eyeHigh old e = eyeHigh new e then waitingView v
  else acceptedView (eyeLevel (eyeHigh new e) (waitingView v).1.pin) pos (waitingView v)

section

variable (e : EyeId) (u : SensorUnit)

theorem eyeView_acceptEdge (blocked : Bool) (x : Pos) : eyeView (acceptEdge e blocked x u) e = acceptedView blocked x (eyeView u e) := by
  rw [eyeView, eyeOf_acceptEdge, sinceOf_acceptEdge, if_pos rfl]
  simp [acceptedView]

theorem eyeView_acceptWaiting : eyeView (acceptWaiting e u) e = waitingView (eyeView u e) := by
  unfold acceptWaiting waitingView
  dsimp only
  split
  · split
    · exact eyeView_acceptEdge e u _ _
    · rfl
  · rfl

/-- A new polarity is one more accepted edge, to the level that the pin reads under it. -/
theorem reconfigureEye_eq (old new : StationConfig) (pos : Pos) :
    reconfigureEye old new pos u e =
      if eyeHigh old e = eyeHigh new e ∧ eyeFilter old e = eyeFilter new e then u
      else if eyeHigh old e = eyeHigh new e then acceptWaiting e u
      else acceptEdge e (eyeLevel (eyeHigh new e) (eyeOf (acceptWaiting e u) e).pin) pos (acceptWaiting e u) := rfl

theorem eyeView_reconfigureEye (old new : StationConfig) (pos : Pos) :
    eyeView (reconfigureEye old new pos u e) e = reconfiguredView old new pos e (eyeView u e) := by
  have waiting := eyeView_acceptWaiting e u
  have pin : (eyeOf (acceptWaiting e u) e).pin = (waitingView (eyeView u e)).1.pin := by rw [← waiting]
  rw [reconfigureEye_eq, reconfiguredView]
  split
  · rfl
  · split
    · exact waiting
    · rw [eyeView_acceptEdge, waiting, pin]

end

/-! ## What one eye leaves alone -/

section

variable {α : Type} {part : SensorUnit → α} {e : EyeId} (kept : ∀ b x u, part (acceptEdge e b x u) = part u) (u : SensorUnit)

include kept

theorem acceptWaiting_keeps : part (acceptWaiting e u) = part u := by
  unfold acceptWaiting
  split
  · split
    · exact kept ..
    · rfl
  · rfl

/-- Whatever an edge accepted at an eye leaves alone, the eye's polarity and filter length leave alone too. -/
theorem reconfigureEye_keeps (old new : StationConfig) (pos : Pos) : part (reconfigureEye old new pos u e) = part u := by
  rw [reconfigureEye_eq]
  split
  · rfl
  · split
    · exact acceptWaiting_keeps kept u
    · rw [kept, acceptWaiting_keeps kept]

end

theorem eyeView_reconfigureEye_of_ne {e d : EyeId} (h : d ≠ e) (old new : StationConfig) (pos : Pos) (u : SensorUnit) :
    eyeView (reconfigureEye old new pos u e) d = eyeView u d :=
  reconfigureEye_keeps (part := fun u => eyeView u d)
    (fun b x u => by rw [eyeView, eyeOf_acceptEdge, sinceOf_acceptEdge, if_neg h, if_neg fun both => h both.1]) u old new pos

theorem lanes_reconfigureEye (old new : StationConfig) (pos : Pos) (u : SensorUnit) (e : EyeId) :
    (reconfigureEye old new pos u e).lanes = u.lanes :=
  reconfigureEye_keeps (part := SensorUnit.lanes) (fun b x u => by cases e <;> cases b <;> rfl) u old new pos

/-! ## A configuration in force (R76, R80, R176) -/

/-- Every eye is reconfigured once, whatever the others do. -/
theorem eyeView_foldl_reconfigureEye (old new : StationConfig) (pos : Pos) (d : EyeId) {l : List EyeId} (distinct : l.Nodup)
    (u : SensorUnit) :
    eyeView (l.foldl (reconfigureEye old new pos) u) d =
      if d ∈ l then reconfiguredView old new pos d (eyeView u d) else eyeView u d := by
  induction l generalizing u with
  | nil => simp
  | cons e l ih =>
    obtain ⟨once, distinct⟩ := List.nodup_cons.mp distinct
    rw [List.foldl_cons, ih distinct]
    by_cases h : d = e
    · subst h
      rw [if_neg once, if_pos List.mem_cons_self, eyeView_reconfigureEye]
    · simp [eyeView_reconfigureEye_of_ne h, h]

theorem lanes_foldl_reconfigureEye (old new : StationConfig) (pos : Pos) (l : List EyeId) (u : SensorUnit) :
    (l.foldl (reconfigureEye old new pos) u).lanes = u.lanes := by
  induction l generalizing u with
  | nil => rfl
  | cons e l ih => rw [List.foldl_cons, ih, lanes_reconfigureEye]

theorem lane_applyConfig (c : StationConfig) (s : State) (k : OutletId) :
    (applyConfig c s).sensor.lanes.get k = ⟨(s.sensor.lanes.get k).pin, (s.sensor.lanes.get k).pin != c.laneLow⟩ := by
  rw [applyConfig, readLanes, PerOutlet.get_ofFn, lanes_foldl_reconfigureEye]
  rfl

theorem eyeView_applyConfig (c : StationConfig) (s : State) (e : EyeId) :
    eyeView (applyConfig c s).sensor e = reconfiguredView s.config c s.position.pos e (eyeView s.sensor e) := by
  have lanes (u : SensorUnit) : eyeView (readLanes c.laneLow u) e = eyeView u e := by cases e <;> rfl
  rw [applyConfig, lanes, eyeView_foldl_reconfigureEye _ _ _ _ (by decide), if_pos (mem_allEyes e)]

/-- The edge that a written polarity or filter length finds waiting (notes/assumptions/4.md). -/
theorem edgeTakenFor_sensor (c : StationConfig) (e : EyeId) (s : State) :
    (edgeTakenFor c e s).sensor =
      if eyeHigh c e = eyeHigh s.config e ∧ eyeFilter c e = eyeFilter s.config e then s.sensor else acceptWaiting e s.sensor := by
  unfold edgeTakenFor acceptWaiting
  split
  · rfl
  · cases (eyeOf s.sensor e).cand with
    | none => rfl
    | some k =>
      dsimp only
      rw [← accepted_eq, apply_ite State.sensor]

theorem edgeTakenFor_heard (c : StationConfig) (e : EyeId) (p : Port) (s : State) :
    (edgeTakenFor c e (heard p s)).sensor = (edgeTakenFor c e s).sensor := by
  rw [edgeTakenFor_sensor, edgeTakenFor_sensor, heard_config, heard_sensor]

section

variable {c : StationConfig} {e : EyeId} {s : State}

/-- An eye of the same polarity is as the edge taken leaves it. -/
theorem eyeView_applyConfig_kept (same : eyeHigh c e = eyeHigh s.config e) :
    eyeView (applyConfig c s).sensor e = eyeView (edgeTakenFor c e s).sensor e := by
  rw [eyeView_applyConfig, reconfiguredView, edgeTakenFor_sensor]
  by_cases filter : eyeFilter c e = eyeFilter s.config e
  · rw [if_pos ⟨same.symm, filter.symm⟩, if_pos ⟨same, filter⟩]
  · rw [if_neg fun both => filter both.2.symm, if_pos same.symm, if_neg fun both => filter both.2, eyeView_acceptWaiting]

theorem pin_waitingView (v : Eye × Option Pos) : (waitingView v).1.pin = v.1.pin := by
  unfold waitingView
  split
  · split <;> rfl
  · rfl

theorem pin_edgeTakenFor : (eyeOf (edgeTakenFor c e s).sensor e).pin = (eyeOf s.sensor e).pin := by
  have waiting : eyeOf (acceptWaiting e s.sensor) e = (waitingView (eyeView s.sensor e)).1 :=
    congrArg Prod.fst (eyeView_acceptWaiting e s.sensor)
  rw [edgeTakenFor_sensor]
  split
  · rfl
  · rw [waiting, pin_waitingView]

/-- An eye of a new polarity is turned to the level of its pin, after the edge that waits (R76). -/
theorem eyeView_applyConfig_turned (turns : eyeHigh c e ≠ eyeHigh s.config e) :
    eyeView (applyConfig c s).sensor e =
      acceptedView (decide ((eyeOf s.sensor e).pin = eyeHigh c e)) s.position.pos (eyeView (edgeTakenFor c e s).sensor e) := by
  rw [eyeView_applyConfig, reconfiguredView, edgeTakenFor_sensor, if_neg fun both => turns both.1.symm, if_neg (Ne.symm turns),
    if_neg fun both => turns both.1, eyeView_acceptWaiting, pin_waitingView]
  rfl

theorem eyeOf_applyConfig_turned (turns : eyeHigh c e ≠ eyeHigh s.config e) :
    eyeOf (applyConfig c s).sensor e = ⟨(eyeOf s.sensor e).pin, decide ((eyeOf s.sensor e).pin = eyeHigh c e), none⟩ := by
  rw [(Prod.mk.inj (eyeView_applyConfig_turned turns)).1, pin_edgeTakenFor]

/-- The eye that is turned and reads blocked is blocked since the belt's position; the others as the edge taken leaves them (R77). -/
theorem sinceOf_applyConfig (c : StationConfig) (e : EyeId) (s : State) :
    sinceOf (applyConfig c s).sensor e =
      if eyeHigh c e ≠ eyeHigh s.config e ∧ (eyeOf (applyConfig c s).sensor e).blocked = true then
        (sinceOf (edgeTakenFor c e s).sensor e).map fun _ => s.position.pos
      else sinceOf (edgeTakenFor c e s).sensor e := by
  by_cases same : eyeHigh c e = eyeHigh s.config e
  · rw [if_neg fun both => both.1 same]
    exact congrArg Prod.snd (eyeView_applyConfig_kept same)
  · rw [eyeOf_applyConfig_turned same, (Prod.mk.inj (eyeView_applyConfig_turned same)).2]
    simp [same]

end

/-! ## WRITE_CONFIG -/

section

variable (num : Byte) {g : Byte} {vals : List Byte} {s : State}

/-- A configuration is written in READY and TRACK_LOST only (R174). -/
theorem writeConfigRule_mode (args : List Byte) (h : s.control.mode ≠ .ready) (h' : s.control.mode ≠ .trackLost) :
    writeConfigRule num args s = answered num 0x02 0x02 [modeByte s.control.mode] s := by
  rw [← modeByte_eq]
  exact if_pos ⟨h, h'⟩

variable (h : s.control.mode = .ready ∨ s.control.mode = .trackLost)

include h

theorem writeConfigRule_nil : writeConfigRule num [] s = answered num 0x02 0x05 [] s := if_neg fun both => h.elim both.1 both.2

theorem writeConfigRule_length (bad : 7 < g.toNat ∨ vals.length ≠ groupSize g.toNat) :
    writeConfigRule num (g :: vals) s = answered num 0x02 0x05 [] s := by
  have unlike : groupLength g ≠ some vals.length := by
    rw [groupLength_eq]
    split
    · exact fun same => bad.elim (by omega) fun length => length (Option.some.inj same).symm
    · exact nofun
  exact (if_neg fun both => h.elim both.1 both.2).trans (if_pos unlike)

variable (known : g.toNat ≤ 7) (length : vals.length = groupSize g.toNat)

include known length

/-- A group of the right length is written, or the place of its first value out of range is the answer. -/
theorem writeConfigRule_group :
    writeConfigRule num (g :: vals) s =
      (writeGroup g vals s.config).elim (fun i => answered num 0x02 0x05 [BitVec.ofNat 8 i] s)
        (fun c => answered num 0x02 0x00 [] (applyConfig c s)) := by
  have fits : groupLength g = some vals.length := by rw [groupLength_eq, if_pos known, length]
  refine (if_neg fun both => h.elim both.1 both.2).trans ((if_neg (not_not_intro fits)).trans ?_)
  cases writeGroup g vals s.config <;> rfl

theorem writeConfigRule_outOfRange {i : Nat} (out : OutOfRange g.toNat vals i) (first : ∀ j, j < i → ¬ OutOfRange g.toNat vals j) :
    writeConfigRule num (g :: vals) s = answered num 0x02 0x05 [BitVec.ofNat 8 i] s := by
  have answer := writeGroup_answer s.config known length
  rw [writeConfigRule_group num h known length]
  cases result : writeGroup g vals s.config with
  | inl j =>
    rw [result] at answer
    obtain ⟨out', first'⟩ := answer
    have same : j = i := Nat.le_antisymm (not_lt.mp fun less => first' i less out) (not_lt.mp fun less => first j less out')
    rw [same]
    rfl
  | inr c =>
    rw [result] at answer
    exact absurd out (answer.1 i)

theorem writeConfigRule_written (inRange : ∀ i, ¬ OutOfRange g.toNat vals i) :
    ∃ c, writeConfigRule num (g :: vals) s = answered num 0x02 0x00 [] (applyConfig c s) ∧
      groupBytes c g.toNat = keptBytes g.toNat vals ∧ ∀ j, j ≠ g.toNat → groupBytes c j = groupBytes s.config j := by
  have answer := writeGroup_answer s.config known length
  rw [writeConfigRule_group num h known length]
  cases result : writeGroup g vals s.config with
  | inl i =>
    rw [result] at answer
    exact absurd answer.1 (inRange i)
  | inr c =>
    rw [result] at answer
    obtain ⟨-, kept, others⟩ := answer
    exact ⟨c, rfl, kept, others⟩

end

end Sys2Proof.Machine

namespace Sys2Proof.Safety

open Sys2Proof.Machine

/-- Settles O52: the group's answer decides the reply, and a configuration in force is read eye by eye. -/
theorem configWritten : Obligations.ConfigWritten := by
  have run {addr num : Byte} {args : List Byte} {s : State} (ht : Takes addr num args.length s) :
      exec (.writeConfig addr num args) s = .next (writeConfigRule num args (heard .u s)) :=
    exec_of_takes .writeConfig rfl ht (.inl rfl)
  refine ⟨fun addr num s ht => ?_, fun addr num g vals s ht => ?_⟩
  · rw [run ht, ← heard_control .u s]
    exact ⟨fun notReady notLost => by rw [writeConfigRule_mode num [] notReady notLost], fun h => by rw [writeConfigRule_nil num h]⟩
  · rw [run ht]
    dsimp only
    rw [← heard_control .u s]
    refine ⟨fun notReady notLost => by rw [writeConfigRule_mode num _ notReady notLost],
      fun h => ⟨fun bad => by rw [writeConfigRule_length num h bad], fun known length => ⟨fun i out first => ?_, fun inRange => ?_⟩⟩⟩
    · rw [writeConfigRule_outOfRange num h known length out first]
    · obtain ⟨c, written, kept, others⟩ := writeConfigRule_written num h known length inRange
      refine ⟨c, (applyConfig c (heard .u s)).sensor, congrArg _ written, kept, ?_, fun k => ?_, fun e same => ?_, fun e turns => ?_,
        ?_, ?_⟩
      · rwa [heard_config] at others
      · rw [lane_applyConfig, heard_sensor]
      · rw [← edgeTakenFor_heard c e .u s]
        exact congrArg Prod.fst (eyeView_applyConfig_kept (same.trans (by rw [heard_config])))
      · rw [← heard_config .u s] at turns
        rw [← heard_sensor .u s]
        exact eyeOf_applyConfig_turned turns
      · rw [← edgeTakenFor_heard c .entry .u s, ← heard_config .u s, ← heard_position .u s]
        exact Option.some.inj ((sinceOf_applyConfig c .entry _).trans (apply_ite some ..).symm)
      · rw [← edgeTakenFor_heard c .exit .u s, ← heard_config .u s, ← heard_position .u s]
        exact Option.some.inj ((sinceOf_applyConfig c .exit _).trans (apply_ite some ..).symm)

end Sys2Proof.Safety
end

section
/-! PROOFS. The events that leave the route store as it is (R83): everything but the resets and the requests and the completion of
chapter 5. -/

namespace Sys2Proof.Machine

open Sys2Proof.Safety

/-! ## The link ports -/

@[simp] theorem portGoesDown_route (p : Port) (s : State) : (portGoesDown p s).route = s.route := by
  have truncated : (if assembling (s.links.get p) then takeRxError p .truncated s else s).route = s.route := by split <;> rfl
  cases p <;> exact truncated

@[simp] theorem violationSymbol_route (p : Port) (s : State) : (violationSymbol p s).route = s.route := by
  dsimp only [violationSymbol]
  split
  · exact portGoesDown_route p _
  · rfl

@[simp] theorem alignSymbol_route (p : Port) (sym : Symbol) (s : State) : (alignSymbol p sym s).route = s.route := by
  have counted : (if Config.alignSymbols ≤ (s.links.get p).alignRun + 1 then portGoesUp p s
      else setAlignRun p ((s.links.get p).alignRun + 1) s).route = s.route := by
    split <;> rfl
  cases sym with
  | violation => rfl
  | _ => exact counted

@[simp] theorem receiveErrorEvent_route (p : Port) (e : RxEvent) (s : State) : (receiveErrorEvent p e s).route = s.route := by
  unfold receiveErrorEvent
  split
  · rfl
  · cases e with
    | violation cause =>
      cases cause with
      | violation =>
        dsimp only
        split
        · rfl
        · exact violationSymbol_route p s
      | data | eof => dsimp only; split <;> rfl
    | truncated cause => cases cause <;> rfl
    | crc | oversize | misdirected => rfl

/-! ## The notice channel, the timers and the transmitters -/

@[simp] theorem takeExpiry_route (s : State) : (takeExpiry s).route = s.route := by
  dsimp only [takeExpiry]
  split <;> rfl

@[simp] theorem tick_route (s : State) : (tick s).route = s.route := by
  have watched : (tickWatch s).route = s.route := by
    unfold tickWatch
    split
    · rfl
    · split <;> rfl
  have acked (t : State) : (tickAck t).route = t.route := by
    unfold tickAck
    split
    · rfl
    · split
      · exact takeExpiry_route t
      · rfl
  exact (acked _).trans watched

@[simp] theorem grantU_route (s : State) : (grantU s).route = s.route := by
  have turn : (grantUTurn s).route = s.route := by
    unfold grantUTurn
    split
    · rfl
    · rfl
    · rfl
    · split <;> rfl
  unfold grantU
  split
  · rfl
  · split
    · rfl
    · exact turn

@[simp] theorem grantD_route (s : State) : (grantD s).route = s.route := by
  unfold grantD
  split
  · rfl
  · rfl
  · rfl
  · split <;> rfl

@[simp] theorem completeSending_route (p : Port) (s : State) : (completeSending p s).route = s.route := by
  have timed (t : State) : (startAckTimer t).route = t.route := by
    unfold startAckTimer
    split <;> rfl
  cases p <;> dsimp only [completeSending] <;> split
  · exact timed _
  all_goals rfl

/-! ## Edges, closes and faults -/

@[simp] theorem entryLeading_route (e : Pos) (s : State) : (entryLeading e s).route = s.route :=
  matchEntry_keeps (P := fun t => t.route = s.route) (Q := fun t => t.route = s.route)
    (fun r x t ht => (removeRecord_route _ r _ x t).trans ht)
    (fun t ht => by
      unfold createStray
      split <;> exact ht)
    (fun _ _ _ ht => ht) _ rfl

@[simp] theorem resolve_route (t : Pos) (s : State) : (resolve t s).route = s.route := by
  have bound (k : OutletId) (p : Pos) (len : BitVec 16) (r : ItemRecord) : (bindOutlet k t p len r s).route = s.route := by
    dsimp only [bindOutlet]
    split
    · rfl
    · split <;> rfl
  unfold resolve
  split
  · rfl
  · split
    · dsimp only
      split
      · rfl
      · exact bound ..
    · rfl

theorem handOff_route (p : ItemRecord → Bool) (r : ItemRecord) (o : OutcomeKind) (x : Pos) (s : State) :
    (handOff p r o x s).route = s.route := by
  unfold handOff
  split <;> simp

@[simp] theorem exitLeading_route (x : Pos) (s : State) : (exitLeading x s).route = s.route := by
  dsimp only [exitLeading, exitMissed, exitPassed]
  split
  · rfl
  · split <;> split <;> simp [handOff_route]

@[simp] theorem confirmLeading_route (k : OutletId) (x : Pos) (s : State) : (confirmLeading k x s).route = s.route := by
  unfold confirmLeading
  split
  · split <;> simp
  · rfl

@[simp] theorem takeEdge_route (e : EyeId) (b : Bool) (x : Pos) (s : State) : (takeEdge e b x s).route = s.route := by
  rw [takeEdge_eq]
  unfold trackEdge
  split
  · split <;> simp
  · rfl

@[simp] theorem edgeCommand_route (e : EyeId) (b : Bool) (s : State) : (edgeCommand e b s).route = s.route := by
  unfold edgeCommand
  split
  · exact takeEdge_route ..
  · rfl

@[simp] theorem takeWaitingEdge_route (e : EyeId) (s : State) : (takeWaitingEdge e s).route = s.route := by
  unfold takeWaitingEdge
  split
  · exact takeEdge_route ..
  · split
    · exact takeEdge_route ..
    · rfl

@[simp] theorem closeApproach_route (r : ItemRecord) (s : State) : (closeApproach r s).route = s.route := removeRecord_route ..

@[simp] theorem closeResolved_route (p : ItemRecord → Bool) (r : ItemRecord) (s : State) :
    (closeResolved p r s).route = s.route := by
  dsimp only [closeResolved]
  split <;> simp

@[simp] theorem flush_route (s : State) : (flush s).route = s.route := by rw [flush_eq]

@[simp] theorem takeFault_route (c : Cause) (s : State) : (takeFault c s).route = s.route := by
  unfold takeFault
  split
  · simp
  · rfl

@[simp] theorem takeDue_route (d : Due) (s : State) : (takeDue d s).route = s.route := by
  cases d with
  | windowEnd k => rfl
  | _ => simp [takeDue]

@[simp] theorem settleFuel_route (n : Nat) (s : State) : (settleFuel n s).route = s.route := by
  induction n generalizing s with
  | zero => rfl
  | succ n ih =>
    unfold settleFuel
    split
    · rfl
    · rw [ih, takeDue_route]

/-! ## ITEMs, ENUMERATEs and the requests of other chapters -/

@[simp] theorem takeItem_route (payload : List Byte) (s : State) : (takeItem payload s).route = s.route := by
  have tracked (i : ItemFields) : (trackItem i s).route = s.route := by
    unfold trackItem
    split
    · rfl
    · split <;> simp
  have relayed (i : ItemFields) : (outOfService i s).route = s.route := by
    unfold outOfService
    split
    · simp
    · split <;> simp
  unfold takeItem
  split
  · rfl
  · split
    · exact tracked _
    · exact relayed _

@[simp] theorem takeEnumerate_route (f : Frame) (s : State) : (takeEnumerate f s).route = s.route := by
  dsimp only [takeEnumerate]
  split
  · rfl
  · split
    · exact offerDown_route f s
    · rw [offerDown_route]
      split <;> rfl

@[simp] theorem startEffect_route (s : State) : (startEffect s).route = s.route := rfl

@[simp] theorem stopEffect_route (s : State) : (stopEffect s).route = s.route := flush_route s

theorem readObjectRule_route (num : Byte) (args : List Byte) (s : State) : (readObjectRule num args s).route = s.route := by
  unfold readObjectRule
  split
  · split
    · dsimp only
      split <;> rfl
    · rfl
  · rfl

theorem writeConfigRule_route (num : Byte) (args : List Byte) (s : State) : (writeConfigRule num args s).route = s.route := by
  dsimp only [writeConfigRule]
  split
  · rfl
  · split
    · rfl
    · split
      · rfl
      · split <;> rfl

theorem readCountersRule_route (num : Byte) (args : List Byte) (s : State) : (readCountersRule num args s).route = s.route := by
  dsimp only [readCountersRule]
  split
  · split
    · split <;> rfl
    · rfl
  · rfl

theorem startTrackingRule_route (num : Byte) (s : State) : (startTrackingRule num s).route = s.route := by
  unfold startTrackingRule
  split <;> rfl

theorem stopTrackingRule_route (num : Byte) (s : State) : (stopTrackingRule num s).route = s.route := by
  unfold stopTrackingRule
  split
  · exact stopEffect_route s
  · rfl

theorem recoverRule_route (num : Byte) (s : State) : (recoverRule num s).route = s.route := by
  unfold recoverRule
  split <;> rfl

theorem ackNoticeRule_route (num : Byte) (args : List Byte) (s : State) : (ackNoticeRule num args s).route = s.route := by
  dsimp only [ackNoticeRule]
  split
  · split
    · split <;> rfl
    · rfl
  · rfl

theorem setNoticeMaskRule_route (num : Byte) (args : List Byte) (s : State) :
    (setNoticeMaskRule num args s).route = s.route := by
  dsimp only [setNoticeMaskRule]
  split <;> rfl

theorem fireTestRule_route (num : Byte) (args : List Byte) (s : State) : (fireTestRule num args s).route = s.route := by
  dsimp only [fireTestRule]
  split
  · rfl
  · split
    · split
      · rfl
      · split
        · rfl
        · split <;> rfl
    · rfl

end Sys2Proof.Machine
end

section
/-! PROOFS. A sound route store, said of either bank alike, and the changes of chapter 5 that keep it sound (R83, R84, R88, R90). -/

namespace Sys2Proof.Machine

open Sys2Proof.Safety

/-! ## A bank of the store and the other one -/

@[simp] theorem bankOf_setBank (r : RouteStore) (id : BankId) (x : Bank) : bankOf (setBank r id x) id = x := by
  cases id <;> rfl

theorem bankOf_setBank_of_ne {id other : BankId} (h : other ≠ id) (r : RouteStore) (x : Bank) :
    bankOf (setBank r id x) other = bankOf r other :=
  match id, other, h with
  | .a, .b, _ => rfl
  | .b, .a, _ => rfl

theorem otherBank_ne (id : BankId) : otherBank id ≠ id := by cases id <;> decide

theorem eq_otherBank {id other : BankId} (h : other ≠ id) : other = otherBank id :=
  match id, other, h with
  | .a, .b, _ => rfl
  | .b, .a, _ => rfl

theorem loading_of_bankLoading {x : Bank} (h : bankLoading x = true) : ∃ plan, x.state = .loading plan := by
  unfold bankLoading at h
  split at h
  · exact ⟨_, ‹_›⟩
  · cases h

end Sys2Proof.Machine

namespace Sys2Proof.Safety

open Sys2Proof.Machine

/-! ## One bank -/

/-- A sound bank that changes its state alone. -/
theorem BankSound.inState {b : Bank} (h : BankSound b) {st : BankState} (occupied : st ≠ .empty)
    (plan : ∀ n, st = .loading n ∨ st = .committing n ∨ st = .committed n → n ≠ 0) : BankSound { b with state := st } where
  canonical := h.canonical
  inRange := h.inRange
  entries := h.entries
  blank := h.blank
  empty e := absurd e occupied
  plan := plan

/-- What a bank reads after a segment has been written (R90). -/
theorem memRead_writeSegment {x : Bank} (wf : Memory.wf x.mem = true) (seg : Fin 64) {entries : List Byte}
    (length : entries.length = 64) (a : Nat) :
    memRead (writeSegment x seg entries).mem a =
      if 64 * seg.val ≤ a ∧ a < 64 * seg.val + 64 then entries.getD (a - 64 * seg.val) 0 else memRead x.mem a := by
  refine (memRead_memWriteBytes entries x.mem wf (64 * seg.val) a).trans ?_
  by_cases low : 64 * seg.val ≤ a
  · by_cases high : a < 64 * seg.val + 64
    · have inside : a - 64 * seg.val < entries.length := by omega
      rw [if_pos low, if_pos ⟨low, high⟩, List.getD_eq_getElem _ _ inside, List.getD_eq_getElem _ _ inside]
    · rw [if_pos low, if_neg fun both => high both.2, List.getD_eq_default _ _ (by omega)]
  · rw [if_neg low, if_neg fun both => low both.1]

/-- A segment written with well-formed entries leaves the bank sound (R84, R90). -/
theorem BankSound.write {b : Bank} (h : BankSound b) {plan : Byte} (loading : b.state = .loading plan) (seg : Fin 64)
    {entries : List Byte} (length : entries.length = 64) (wellFormed : entriesWellFormed entries = true) :
    BankSound (writeSegment b seg entries) := by
  have read := memRead_writeSegment h.canonical seg length
  have each := (entriesWellFormed_iff entries 16 length).mp wellFormed
  refine ⟨writeSegment_wf b h.canonical seg entries, fun a ha => ?_, fun i hi => ?_, fun i hblank j hj => ?_, fun empty => ?_, h.plan⟩
  · rw [read, if_neg (by omega)]
    exact h.inRange a ha
  · rw [read, read]
    by_cases inside : 16 * seg.val ≤ i ∧ i < 16 * seg.val + 16
    · rw [if_pos (by omega), if_pos (by omega)]
      have entry := each (i - 16 * seg.val) (by omega)
      rwa [show 4 * (i - 16 * seg.val) = 4 * i - 64 * seg.val by omega,
        show 4 * i - 64 * seg.val + 1 = 4 * i + 1 - 64 * seg.val by omega] at entry
    · rw [if_neg (by omega), if_neg (by omega)]
      exact h.entries i hi
  · have advanced : advanceSeg b.segs[seg] ≠ .blank := by cases b.segs[seg] <;> nofun
    by_cases same : i = seg
    · subst same
      exact absurd (by simpa [writeSegment] using hblank) advanced
    · have other : i.val ≠ seg.val := fun e => same (Fin.ext e)
      rw [read, if_neg (by omega)]
      refine h.blank i ?_ j hj
      simpa [writeSegment, Vector.getElem_set, other.symm] using hblank
  · exact absurd (loading.symm.trans empty) nofun

/-! ## The store -/

/-- Either bank of the store is sound, COMMITTING exactly when its check is in flight, and shares no plan number with the other. -/
def StoreSound (r : RouteStore) : Prop :=
  ∀ id, BankSound (bankOf r id) ∧ ((∃ n, (bankOf r id).state = .committing n) ↔ ∃ e m, r.check = some ⟨id, e, m⟩)
    ∧ ∀ n, bankPlan (bankOf r id) = some n → bankPlan (bankOf r (otherBank id)) ≠ some n

theorem banksSound_iff (s : State) : BanksSound s ↔ StoreSound s.route where
  mp h id := match id with
    | .a => ⟨h.a, h.checkA, h.plans⟩
    | .b => ⟨h.b, h.checkB, fun n hb ha => h.plans n ha hb⟩
  mpr h := by
    obtain ⟨a, checkA, plans⟩ := h .a
    obtain ⟨b, checkB, -⟩ := h .b
    exact ⟨a, b, checkA, checkB, plans⟩

theorem storeSound_cleared : StoreSound ⟨Bank.cleared, Bank.cleared, none⟩ := (banksSound_iff State.reset).mp banksSound_reset

namespace StoreSound

variable {r : RouteStore} (h : StoreSound r)
include h

theorem bank (id : BankId) : BankSound (bankOf r id) := (h id).1

theorem check (id : BankId) : (∃ n, (bankOf r id).state = .committing n) ↔ ∃ e m, r.check = some ⟨id, e, m⟩ := (h id).2.1

theorem plans (id : BankId) (n : Byte) (held : bankPlan (bankOf r id) = some n) : bankPlan (bankOf r (otherBank id)) ≠ some n :=
  (h id).2.2 n held

/-- A sound bank put into the store, with the check in flight as its state says and no plan number of the other bank. -/
theorem replace (id : BankId) {x : Bank} {check : Option BankCheck} (sound : BankSound x)
    (own : (∃ n, x.state = .committing n) ↔ ∃ e m, check = some ⟨id, e, m⟩)
    (other : ∀ e m, check = some ⟨otherBank id, e, m⟩ ↔ r.check = some ⟨otherBank id, e, m⟩)
    (plan : ∀ n, bankPlan x = some n → bankPlan (bankOf r (otherBank id)) ≠ some n) :
    StoreSound { setBank r id x with check := check } := by
  have bank (j : BankId) : bankOf { setBank r id x with check := check } j = bankOf (setBank r id x) j := by cases j <;> rfl
  have kept : bankOf (setBank r id x) (otherBank id) = bankOf r (otherBank id) := bankOf_setBank_of_ne (otherBank_ne id) r x
  have back : otherBank (otherBank id) = id := by cases id <;> rfl
  intro j
  rw [bank, bank]
  rcases eq_or_ne j id with rfl | ne
  · rw [bankOf_setBank, kept]
    exact ⟨sound, own, plan⟩
  · rw [eq_otherBank ne, back, kept, bankOf_setBank]
    exact ⟨h.bank _, (h.check _).trans (exists_congr fun e => exists_congr fun m => (other e m).symm),
      fun n held same => plan n same held⟩

/-- A bank replaced by one that fits the check in flight as it stands. -/
theorem put (id : BankId) {x : Bank} (sound : BankSound x)
    (own : (∃ n, x.state = .committing n) ↔ ∃ e m, r.check = some ⟨id, e, m⟩)
    (plan : ∀ n, bankPlan x = some n → bankPlan (bankOf r (otherBank id)) ≠ some n) : StoreSound (setBank r id x) := by
  have same : setBank r id x = { setBank r id x with check := r.check } := by cases id <;> rfl
  rw [same]
  exact h.replace id sound own (fun _ _ => Iff.rfl) plan

/-- A bank opened under a plan number that the other bank does not carry (R88). -/
theorem opened (id : BankId) {plan : Byte} (idle : r.check = none) (nonzero : plan ≠ 0)
    (fresh : bankPlan (bankOf r (otherBank id)) ≠ some plan) :
    StoreSound (setBank r id { Bank.cleared with state := .loading plan }) := by
  refine h.put id (bankSound_cleared.inState nofun fun n hn => ?_) (by simp [idle]) fun n hn => ?_
  · obtain rfl : plan = n := by simpa using hn
    exact nonzero
  · obtain rfl : plan = n := Option.some.inj hn
    exact fresh

/-- A bank emptied (R91). -/
theorem dropped (id : BankId) (idle : r.check = none) : StoreSound (setBank r id Bank.cleared) :=
  h.put id bankSound_cleared (by simp [idle, Bank.cleared]) nofun

/-- A segment of a LOADING bank written (R90). -/
theorem written (id : BankId) {plan : Byte} (loading : (bankOf r id).state = .loading plan) (seg : Fin 64) {entries : List Byte}
    (length : entries.length = 64) (wellFormed : entriesWellFormed entries = true) :
    StoreSound (setBank r id (writeSegment (bankOf r id) seg entries)) :=
  h.put id ((h.bank id).write loading seg length wellFormed) (h.check id) (h.plans id)

/-- The check of a LOADING bank begun (R92). -/
theorem checking (id : BankId) {plan : Byte} (expected : BitVec 16) (num : Byte) (idle : r.check = none)
    (loading : (bankOf r id).state = .loading plan) :
    StoreSound { setBank r id { bankOf r id with state := .committing plan } with check := some ⟨id, expected, num⟩ } := by
  refine h.replace id ((h.bank id).inState nofun fun n hn => ?_) ⟨fun _ => ⟨_, _, rfl⟩, fun _ => ⟨_, rfl⟩⟩
    (by simp [idle, (otherBank_ne id).symm]) fun n hn => h.plans id n ?_
  · obtain rfl : plan = n := by simpa using hn
    exact (h.bank id).plan plan (.inl loading)
  · rw [← hn]
    simp [bankPlan, loading]

/-- The check in flight completed, its bank COMMITTED or LOADING again under its plan number (R94, R95). -/
theorem checked {k : BankCheck} {next : BankState} (inFlight : r.check = some k)
    (done : next = .committed ((bankPlan (bankOf r k.bank)).getD 0) ∨ next = .loading ((bankPlan (bankOf r k.bank)).getD 0)) :
    StoreSound { setBank r k.bank { bankOf r k.bank with state := next } with check := none } := by
  obtain ⟨id, e, num⟩ := k
  obtain ⟨plan, committing⟩ := (h.check id).mpr ⟨e, num, inFlight⟩
  have held : bankPlan (bankOf r id) = some plan := by simp [bankPlan, committing]
  have nonzero : plan ≠ 0 := (h.bank id).plan plan (.inr (.inl committing))
  have other : ¬ id = otherBank id := (otherBank_ne id).symm
  rw [held, Option.getD_some] at done
  rcases done with rfl | rfl <;>
    refine h.replace id ((h.bank id).inState nofun fun n hn => ?_) (by simp) (by simp [inFlight, other])
      fun n hn => h.plans id n (held.trans hn)
  all_goals
    obtain rfl : plan = n := by simpa using hn
    exact nonzero

end StoreSound

end Sys2Proof.Safety
end

section
/-! PROOFS. Every step keeps the route store sound: the requests and the completion of chapter 5 by the changes they make, the resets
and RESTART by clearing it, and every other event by leaving it as it is. -/

namespace Sys2Proof.Safety

open Sys2Proof.Machine

theorem StoreSound.of_eq {r r' : RouteStore} (h : StoreSound r) (same : r' = r) : StoreSound r' := same ▸ h

/-- A port that does not receive takes no frame (R136, R148). -/
theorem receiveFrame_of_not_hears {p : Port} {s : State} (h : ¬ Hears p s) (f : Frame) : receiveFrame p f s = s := by
  unfold receiveFrame
  exact if_pos (by cases hr : s.resetHeld <;> cases hu : (s.links.get p).up <;> simp_all [Hears])

section

variable {s : State} (h : StoreSound s.route)
include h

/-! ## The requests of chapter 5 -/

theorem openPlanRule_sound (num : Byte) (args : List Byte) (idle : s.route.check = none) :
    StoreSound (openPlanRule num args s).route := by
  dsimp only [openPlanRule]
  split
  · split
    · exact h
    · split
      · exact h
      · split
        · exact h
        · split
          · exact h
          · exact h.opened _ idle ‹_› ‹_›
  · exact h

theorem writeSegmentRule_sound (num : Byte) {args : List Byte} (length : args.length = 66) :
    StoreSound (writeSegmentRule num args s).route := by
  dsimp only [writeSegmentRule]
  split
  · split
    · exact h
    · split
      · split
        · exact h
        · split
          · exact h
          · rename_i loading wellFormed
            obtain ⟨plan, loading⟩ := loading_of_bankLoading (by simpa using loading)
            exact h.written _ loading _ (by simpa using length) (by simpa using wellFormed)
      · exact h
  · exact h

theorem commitPlanRule_sound (num : Byte) (args : List Byte) (idle : s.route.check = none) :
    StoreSound (commitPlanRule num args s).route := by
  dsimp only [commitPlanRule]
  split
  · split
    · exact h
    · split
      · exact h.checking _ _ _ idle ‹_›
      · exact h
  · exact h

theorem dropPlanRule_sound (num : Byte) (args : List Byte) (idle : s.route.check = none) :
    StoreSound (dropPlanRule num args s).route := by
  dsimp only [dropPlanRule]
  split
  · split
    · exact h
    · split
      · exact h
      · exact h.dropped _ idle
  · exact h

theorem completeCheck_sound {k : BankCheck} (inFlight : s.route.check = some k) :
    StoreSound (completeCheck k s).route := by
  dsimp only [completeCheck]
  split
  · exact h.checked inFlight (.inl rfl)
  · exact h.checked inFlight (.inr rfl)

/-! ## The path of a request -/

/-- A code that reaches its owning rule does so with no check in flight, or is RESTART (R96), and with its arguments counted (R165). -/
theorem owningRule_sound {code : RequestCode} (num : Byte) {args : List Byte}
    (idle : code ≠ .restart → s.route.check = none) (length : ∀ n, argumentLength code = some n → args.length = n) :
    StoreSound (owningRule code num args s).route := by
  cases code with
  | readObject => exact h.of_eq (readObjectRule_route num args s)
  | writeConfig => exact h.of_eq (writeConfigRule_route num args s)
  | readCounters => exact h.of_eq (readCountersRule_route num args s)
  | openPlan => exact openPlanRule_sound h num args (idle nofun)
  | writeSegment => exact writeSegmentRule_sound h num (length 66 rfl)
  | commitPlan => exact commitPlanRule_sound h num args (idle nofun)
  | dropPlan => exact dropPlanRule_sound h num args (idle nofun)
  | startTracking => exact h.of_eq (startTrackingRule_route num s)
  | stopTracking => exact h.of_eq (stopTrackingRule_route num s)
  | recover => exact h.of_eq (recoverRule_route num s)
  | restart => exact storeSound_cleared
  | ackNotice => exact h.of_eq (ackNoticeRule_route num args s)
  | setNoticeMask => exact h.of_eq (setNoticeMaskRule_route num args s)
  | fireTest => exact h.of_eq (fireTestRule_route num args s)

theorem executeRequest_sound {num code : Byte} {args : List Byte}
    (idle : code ≠ requestByte .restart → s.route.check = none) : StoreSound (executeRequest num code args s).route := by
  unfold executeRequest
  split
  · exact h
  · rename_i c hc
    have idle : c ≠ .restart → s.route.check = none := fun hne => idle fun restart => by
      subst restart
      exact hne (Option.some.inj hc).symm
    split
    · rename_i n hn
      split
      · exact owningRule_sound h num idle fun m hm => ‹args.length = n›.trans (Option.some.inj (hn.symm.trans hm))
      · exact h
    · rename_i hn
      exact owningRule_sound h num idle fun m hm => nomatch hn.symm.trans hm

theorem answerRequest_sound {num code : Byte} {args : List Byte}
    (idle : code ≠ requestByte .restart → s.route.check = none) : StoreSound (answerRequest num code args s).route := by
  unfold answerRequest
  split
  · split
    · exact h
    · exact executeRequest_sound h idle
  · exact executeRequest_sound h idle

theorem takeAddressed_sound (num code : Byte) (args : List Byte) :
    StoreSound (takeAddressed num code args s).route := by
  unfold takeAddressed
  split
  · exact h
  · split
    · exact answerRequest_sound h fun _ => ‹_›
    · split
      · exact h
      · split
        · exact answerRequest_sound h fun other => absurd ‹_› other
        · exact h

theorem takeBroadcast_sound (payload : List Byte) : StoreSound (takeBroadcast payload s).route := by
  unfold takeBroadcast
  split
  · split
    · split <;> exact h
    · split
      · exact h.of_eq (stopEffect_route s)
      · exact h
    · exact storeSound_cleared
    · exact h
  · exact h

theorem takeRequest_sound (f : Frame) : StoreSound (takeRequest f s).route := by
  unfold takeRequest
  split
  · unfold takeAddressedPayload
    split
    · exact takeAddressed_sound h _ _ _
    · exact h
  · split
    · exact takeBroadcast_sound (h.of_eq (offerDown_route f s)) f.payload
    · exact h.of_eq (offerDown_route f s)

/-! ## Ports and the dispatch -/

theorem frameArrival_sound (p : Port) (f : Frame) : StoreSound (frameArrival p f s).route := by
  cases p with
  | d => exact h.of_eq (offerUp_route f s)
  | u =>
    change StoreSound (frameFromU f s).route
    unfold frameFromU
    split
    · exact h.of_eq (takeEnumerate_route f s)
    · split
      · exact h.of_eq (offerDown_route f s)
      · split
        · exact takeRequest_sound h f
        · split
          · exact h.of_eq (takeItem_route f.payload s)
          · exact h.of_eq (offerDown_route f s)

theorem receiveFrame_sound (p : Port) (f : Frame) : StoreSound (receiveFrame p f s).route := by
  by_cases hears : Hears p s
  · have heard : StoreSound (heard p s).route := h.of_eq (heard_route p s)
    rw [receiveFrame_eq p f s hears]
    split
    · exact heard
    · split
      · exact heard
      · exact frameArrival_sound heard p f
  · exact h.of_eq (by rw [receiveFrame_of_not_hears hears])

theorem plainSymbol_sound (p : Port) (sym : Symbol) : StoreSound (plainSymbol p sym s).route := by
  dsimp only [plainSymbol]
  split
  case h_8 => -- the EOF of a frame in assembly
    split
    · exact h
    · exact frameArrival_sound (s := setFramer p .between (setViolationRun p 0 s)) h p _
  case h_5 => split <;> exact h -- its next byte
  case h_13 => exact h.of_eq (violationSymbol_route p _)
  all_goals exact h

theorem receiveSymbol_sound (p : Port) (sym : Symbol) : StoreSound (receiveSymbol p sym s).route := by
  unfold receiveSymbol
  split
  · exact h
  · split
    · split
      · exact h.of_eq (violationSymbol_route p s)
      · exact plainSymbol_sound h p _
    · exact h.of_eq (alignSymbol_route p sym s)

/-- Every command keeps the store sound. -/
theorem exec_sound {c : Instr} {t : State} (run : exec c s = .next t) : StoreSound t.route := by
  cases hq : requestOf c with
  | some q =>
    obtain ⟨addr, num, code, args⟩ := q
    rw [exec_requestOf s hq] at run
    cases run
    exact receiveFrame_sound h _ _
  | none =>
    cases c with
    | powerOn => cases run; split <;> exact storeSound_cleared
    | resetAsserted => cases run; exact storeSound_cleared
    | resetReleased => cases run; split <;> exact h
    | bankCheckCompletion =>
      cases run
      split
      · exact completeCheck_sound h ‹_›
      · exact h
    | receiveError p e => cases run; exact h.of_eq (receiveErrorEvent_route p e s)
    | symbolReceived p sym => cases run; exact receiveSymbol_sound h p sym
    | item addr payload => cases run; exact receiveFrame_sound h _ _
    | enumerate v payload => cases run; exact receiveFrame_sound h _ _
    | downstreamRelay f => cases run; exact receiveFrame_sound h _ _
    | upstreamRelay f => cases run; exact receiveFrame_sound h _ _
    | readRoute bank addr num args => cases bank <;> cases hq
    | portDown p cause =>
      cases run
      refine h.of_eq ?_
      split
      · rfl
      · split <;> split <;> simp
    | portUp p => cases run; split <;> exact h
    | forwardCount | backwardCount =>
      cases run
      refine h.of_eq ?_
      split
      · rfl
      · exact settleFuel_route ..
    | eyePinChange e high =>
      cases run
      refine h.of_eq ?_
      split
      · rfl
      · split
        · rfl
        · exact takeWaitingEdge_route e s
    | encoderDoubleChange | laneFullChange k high => cases run; exact h
    | entryLeadingEdge | entryTrailingEdge | confirmLeadingEdge k | confirmTrailingEdge k | exitLeadingEdge
    | exitTrailingEdge => cases run; exact h.of_eq (edgeCommand_route ..)
    | sendingComplete p => cases run; exact h.of_eq (completeSending_route p s)
    | reversal | blockedLimitReached e | approachWindowClose | confirmWindowClose | exitWindowClose | uTransmitGrant
    | dTransmitGrant | ackTimeout =>
      cases run
      refine h.of_eq ?_
      split <;> simp
    | firingWindowEnd k | testFireEnd k => cases run; split <;> exact h
    | stall | noticeChoice =>
      cases run
      split
      · split <;> exact h
      · exact h
    | _ => cases hq

theorem step_sound {t : State} (run : step s = .next t) : StoreSound t.route := by
  unfold step at run
  split at run
  · cases run
    exact h.of_eq (tick_route s)
  · rename_i rest _
    exact exec_sound (s := { s with pending := rest }) h run

end

/-- Settles O7: a step is a tick or a command, and each keeps the store sound. -/
theorem stepKeepsBanksSound : Obligations.StepKeepsBanksSound := fun s t h hstep =>
  (banksSound_iff t).mpr (step_sound ((banksSound_iff s).mp h) hstep)

end Sys2Proof.Safety
end

section
/-! PROOFS. The tests that every addressed REQUEST meets before its own rule (R96, R164 to R168). -/

namespace Sys2Proof.Machine

open Sys2Proof.Safety

/-- A REQUEST frame addressed to this station is the request unit's, whatever its payload (R150, R151). -/
theorem receiveFrame_ownRequest {addr : Byte} {payload : List Byte} {s : State} (h : OwnRequest addr payload.length s) :
    receiveFrame .u ⟨0x02, addr, payload⟩ s = takeAddressedPayload payload (heard .u s) := by
  obtain ⟨hears, addressed, own, length⟩ := h
  have short : ¬ 80 < payload.length := by omega
  rw [receiveFrame_eq .u _ s hears, if_neg short, if_neg (by change ¬ (!(2 : Byte).msb) = false; decide)]
  simp [frameArrival, frameFromU, takeRequest, kindEnumerate, kindRequest, addressByte, addressed, own]

theorem takeAddressedPayload_short {payload : List Byte} (short : payload.length < 2) (s : State) :
    takeAddressedPayload payload s = s := by
  match payload, short with
  | [], _ => rfl
  | [_], _ => rfl

section

variable {num code : Byte} {args : List Byte} {s : State}

/-! ## Tests 1 and 2: the hold-off and the bank check -/

theorem takeAddressed_heldOff (waiting : s.request.slot.isSome = true) (h : code ≠ 0x23) : takeAddressed num code args s = s :=
  if_pos ⟨waiting, h⟩

/-- The COMMIT_PLAN whose check is in flight, sent again (R96). -/
theorem takeAddressed_repeated {k : BankCheck} (free : s.request.slot = none) (inFlight : s.route.check = some k) (hc : code = 0x12)
    (hn : num = k.number) : takeAddressed num code args s = s := by
  unfold takeAddressed
  rw [if_neg (by simp [free]), inFlight]
  exact if_pos ⟨hc, hn⟩

theorem takeAddressed_busy {k : BankCheck} (free : s.request.slot = none) (inFlight : s.route.check = some k) (h : code ≠ 0x23)
    (other : code ≠ 0x12 ∨ num ≠ k.number) : takeAddressed num code args s = busied num code s := by
  unfold takeAddressed
  rw [if_neg (by simp [free]), inFlight]
  exact (if_neg fun same => other.elim (· same.1) (· same.2)).trans (if_neg h)

/-- RESTART passes both tests; any other request passes where no reply waits and no check is in flight. -/
theorem takeAddressed_passes (h : code = 0x23 ∨ (s.request.slot = none ∧ s.route.check = none)) :
    takeAddressed num code args s = answerRequest num code args s := by
  unfold takeAddressed
  rcases h with rfl | ⟨free, idle⟩
  · rw [if_neg fun held => held.2 rfl]
    split
    · rfl
    · exact (if_neg fun same => absurd same.1 (by decide)).trans (if_pos rfl)
  · rw [if_neg (by simp [free]), idle]

/-! ## Tests 3 to 5: the reply cache, the code and the argument length -/

theorem answerRequest_cached {f : Frame} (cached : s.request.cache = some (num, f)) :
    answerRequest num code args s = { s with request := { s.request with slot := some f } } := by
  unfold answerRequest
  rw [cached]
  exact if_pos rfl

theorem answerRequest_fresh (fresh : ∀ f, s.request.cache ≠ some (num, f)) :
    answerRequest num code args s = executeRequest num code args s := by
  unfold answerRequest
  split
  · rename_i n f cached
    exact if_neg fun same : n = num => fresh f (same ▸ cached)
  · rfl

theorem executeRequest_unknown (unknown : argumentBytes code = none) (h : code ≠ 0x02) :
    executeRequest num code args s = answered num code 0x0A [] s := by
  unfold executeRequest
  rw [(requestOfByte_eq_none_iff code).mpr ⟨unknown, h⟩]
  rfl

theorem executeRequest_length {n : Nat} (takes : argumentBytes code = some n) (h : args.length ≠ n) :
    executeRequest num code args s = answered num code 0x05 [] s := by
  obtain ⟨c, hc, hl⟩ := requestOfByte_of_argumentBytes takes
  unfold executeRequest
  rw [hc]
  dsimp only
  rw [hl]
  exact if_neg h

end

end Sys2Proof.Machine

namespace Sys2Proof.Safety

open Sys2Proof.Machine

/-- Settles O48: the tests in their order, each with what it answers. -/
theorem requestPath : Obligations.RequestPath := by
  refine ⟨fun addr payload s own short => ?_, fun c addr num code args s hc own => ?_⟩
  · rw [← takeAddressedPayload_short short (heard .u s), ← receiveFrame_ownRequest own]
    rfl
  · rw [exec_requestOf s hc, receiveRequest_own own, ← heard_route .u s, ← heard_request .u s]
    refine ⟨fun waiting h => by rw [takeAddressed_heldOff waiting h], fun k free inFlight => ⟨fun hcode hn => ?_, fun h other => ?_⟩,
      fun passes => ?_⟩
    · rw [takeAddressed_repeated free inFlight hcode hn]
    · rw [takeAddressed_busy free inFlight h other]
    · rw [takeAddressed_passes passes]
      refine ⟨fun f cached => by rw [answerRequest_cached cached], fun fresh => ?_⟩
      rw [answerRequest_fresh fresh]
      exact ⟨fun unknown h => by rw [executeRequest_unknown unknown h], fun n takes h => by rw [executeRequest_length takes h]⟩

end Sys2Proof.Safety
end

section
/-! PROOFS. The requests of chapter 5 and the completion of the bank check (R84, R88, R90 to R95). -/

namespace Sys2Proof.Machine

open Sys2Proof.Safety

/-! ## What the requests' tests read -/

@[simp] theorem bankOfByte_bankByte (id : BankId) : bankOfByte (bankByte id) = some id := by cases id <;> rfl

theorem bankOfByte_eq_none {bank : Byte} (h : 1 < bank.toNat) : bankOfByte bank = none := by
  unfold bankOfByte
  rw [if_neg (by rintro rfl; simp at h), if_neg (by rintro rfl; simp at h)]

@[simp] theorem references_heard (p : Port) (s : State) (id : BankId) : references (heard p s) id = references s id := by
  simp [references]

theorem bankLoading_of_loading {x : Bank} {plan : Byte} (h : x.state = .loading plan) : bankLoading x = true := by
  simp [bankLoading, h]

theorem bankLoading_eq_false {x : Bank} (h : ∀ plan, x.state ≠ .loading plan) : bankLoading x = false := by
  unfold bankLoading
  split
  · exact absurd ‹_› (h _)
  · rfl

/-! ## The requests that reach their rules -/

section

variable {addr num : Byte} {args : List Byte} {s : State} (ht : Takes addr num args.length s)
include ht

theorem exec_openPlan (length : args.length = 2) :
    exec (.openPlan addr num args) s = .next (openPlanRule num args (heard .u s)) :=
  exec_of_takes .openPlan rfl ht (.inr (congrArg some length.symm))

theorem exec_writeSegment (length : args.length = 66) :
    exec (.writeSegment addr num args) s = .next (writeSegmentRule num args (heard .u s)) :=
  exec_of_takes .writeSegment rfl ht (.inr (congrArg some length.symm))

theorem exec_commitPlan (length : args.length = 3) :
    exec (.commitPlan addr num args) s = .next (commitPlanRule num args (heard .u s)) :=
  exec_of_takes .commitPlan rfl ht (.inr (congrArg some length.symm))

theorem exec_dropPlan (length : args.length = 1) :
    exec (.dropPlan addr num args) s = .next (dropPlanRule num args (heard .u s)) :=
  exec_of_takes .dropPlan rfl ht (.inr (congrArg some length.symm))

end

section

variable (num : Byte) {bank : Byte} {s : State}

/-! ## OPEN_PLAN and DROP_PLAN -/

theorem openPlanRule_badArg {plan : Byte} (bad : 1 < bank.toNat ∨ plan = 0) :
    openPlanRule num [bank, plan] s = answered num 0x10 0x05 [] s := by
  dsimp only [openPlanRule]
  split
  · rfl
  · rename_i id found
    refine if_pos (bad.resolve_left fun high => ?_)
    rw [bankOfByte_eq_none high] at found
    cases found

/-- OPEN_PLAN of a bank and a plan number, after BAD_ARG (R88). -/
theorem openPlanRule_bank (id : BankId) {plan : Byte} (nonzero : plan ≠ 0) :
    openPlanRule num [bankByte id, plan] s =
      if references s id ≠ 0 then answered num 0x10 0x03 [BitVec.ofNat 8 (references s id)] s
      else if bankPlan (bankOf s.route (otherBank id)) = some plan then answered num 0x10 0x08 [] s
      else answered num 0x10 0x00 []
        { s with route := setBank s.route id ⟨.loading plan, [], Vector.replicate 64 .blank⟩ } := by
  dsimp only [openPlanRule]
  rw [bankOfByte_bankByte, ← referenceCount_eq]
  exact if_neg nonzero

theorem dropPlanRule_badArg (bad : 1 < bank.toNat) : dropPlanRule num [bank] s = answered num 0x13 0x05 [] s := by
  dsimp only [dropPlanRule]
  rw [bankOfByte_eq_none bad]
  rfl

/-- DROP_PLAN of a bank, after BAD_ARG (R91). -/
theorem dropPlanRule_bank (id : BankId) :
    dropPlanRule num [bankByte id] s =
      if references s id ≠ 0 then answered num 0x13 0x03 [BitVec.ofNat 8 (references s id)] s
      else answered num 0x13 0x00 [] { s with route := setBank s.route id ⟨.empty, [], Vector.replicate 64 .blank⟩ } := by
  dsimp only [dropPlanRule]
  rw [bankOfByte_bankByte, ← referenceCount_eq]
  rfl

/-! ## WRITE_SEGMENT -/

theorem advanceSeg_eq (x : SegState) : advanceSeg x = if x = .blank then .written else .rewritten := by cases x <;> rfl

variable {seg : Byte} {entries : List Byte}

theorem writeSegmentRule_badArg (bad : 1 < bank.toNat ∨ 64 ≤ seg.toNat) :
    writeSegmentRule num (bank :: seg :: entries) s = answered num 0x11 0x05 [] s := by
  dsimp only [writeSegmentRule]
  split
  · rfl
  · rename_i id found
    refine dif_neg fun inRange => ?_
    rw [bankOfByte_eq_none (bad.resolve_right (Nat.not_le.mpr inRange))] at found
    cases found

/-- WRITE_SEGMENT of a bank and a segment, after its first BAD_ARG (R90). -/
theorem writeSegmentRule_bank (id : BankId) {i : Fin 64} (inRange : seg.toNat = i.val) :
    writeSegmentRule num (bankByte id :: seg :: entries) s =
      if bankLoading (bankOf s.route id) = false then answered num 0x11 0x04 [bankStateByte (bankOf s.route id).state] s
      else if entriesWellFormed entries = false then answered num 0x11 0x05 [] s
      else answered num 0x11 0x00 [segByte (advanceSeg (bankOf s.route id).segs[i])]
        { s with route := setBank s.route id (writeSegment (bankOf s.route id) i entries) } := by
  obtain ⟨i, hi⟩ := i
  obtain rfl : seg.toNat = i := inRange
  dsimp only [writeSegmentRule]
  rw [bankOfByte_bankByte]
  dsimp only
  rw [dif_pos hi, bankStateByte_eq, segByte_eq]
  simp [writeSegment, reply_eq, statusCode, requestByte]

/-! ## COMMIT_PLAN -/

variable {expected : BitVec 16}

theorem commitPlanRule_badArg (bad : 1 < bank.toNat) :
    commitPlanRule num (bank :: two expected) s = answered num 0x12 0x05 [] s := by
  dsimp only [commitPlanRule]
  rw [bankOfByte_eq_none bad]
  rfl

theorem commitPlanRule_bankState (id : BankId) (h : ∀ plan, (bankOf s.route id).state ≠ .loading plan) :
    commitPlanRule num (bankByte id :: two expected) s =
      answered num 0x12 0x04 [bankStateByte (bankOf s.route id).state] s := by
  dsimp only [commitPlanRule]
  rw [bankOfByte_bankByte, ← bankStateByte_eq]
  dsimp only
  split
  · exact absurd ‹_› (h _)
  · rfl

theorem commitPlanRule_loading (id : BankId) {plan : Byte} (h : (bankOf s.route id).state = .loading plan) :
    commitPlanRule num (bankByte id :: two expected) s =
      { s with route :=
        { setBank s.route id { bankOf s.route id with state := .committing plan } with check := some ⟨id, expected, num⟩ } } := by
  dsimp only [commitPlanRule]
  rw [bankOfByte_bankByte, of16_two]
  dsimp only
  rw [h]

end

/-! ## BANK_CHECK_COMPLETION -/

theorem bankCrc_eq (m : Memory) : bankCrc m = crc16 ((List.range 4096).map (memRead m)) := by
  simp [bankCrc, memReadBytes, Config.bankEntries]

theorem countSegs_eq (x : Bank) (st : SegState) : countSegs x st = x.segs.toList.count st := by
  simp only [countSegs, List.count, beq_eq_decide]

/-- The check of a COMMITTING bank completes (R94, R95). -/
theorem completeCheck_eq {id : BankId} {plan : Byte} {s : State} (h : (bankOf s.route id).state = .committing plan)
    (expected : BitVec 16) (num : Byte) :
    completeCheck ⟨id, expected, num⟩ s =
      (let bank := bankOf s.route id
       let computed := crc16 ((List.range 4096).map (memRead bank.mem))
       if computed = expected then
        answered num 0x12 0x00
          [BitVec.ofNat 8 (bank.segs.toList.count .blank), BitVec.ofNat 8 (bank.segs.toList.count .rewritten)]
          { s with route := { setBank s.route id { bank with state := .committed plan } with check := none } }
       else
        answered num 0x12 0x07 (two computed)
          { s with route := { setBank s.route id { bank with state := .loading plan } with check := none } }) := by
  have held : (bankPlan (bankOf s.route id)).getD 0 = plan := by simp [bankPlan, h]
  dsimp only [completeCheck]
  rw [held, bankCrc_eq, countSegs_eq, countSegs_eq]
  rfl

end Sys2Proof.Machine

namespace Sys2Proof.Safety

open Sys2Proof.Machine

/-- Settles O54: both requests reach their rules, whose tests come in the order of R88 and R91. -/
theorem plansOpenedAndDropped : Obligations.PlansOpenedAndDropped := by
  refine ⟨fun addr num bank plan s ht => ?_, fun addr num bank s ht => ?_⟩
  · rw [exec_openPlan (args := [bank, plan]) ht rfl]
    refine ⟨fun bad => by rw [openPlanRule_badArg num bad], fun id hb nonzero => ?_⟩
    rw [hb, openPlanRule_bank num id nonzero, references_heard, heard_route]
    exact ⟨fun used => by rw [if_pos used],
      fun free duplicate => by rw [if_neg (not_not_intro free), if_pos duplicate],
      fun free fresh => by rw [if_neg (not_not_intro free), if_neg fresh]⟩
  · rw [exec_dropPlan (args := [bank]) ht rfl]
    refine ⟨fun bad => by rw [dropPlanRule_badArg num bad], fun id hb => ?_⟩
    rw [hb, dropPlanRule_bank num id, references_heard, heard_route]
    exact ⟨fun used => by rw [if_pos used], fun free => by rw [if_neg (not_not_intro free)]⟩

/-- Settles O55: what the segment then reads is what was written, for the store is in canonical form. -/
theorem segmentWritten : Obligations.SegmentWritten := by
  intro addr num bank seg entries s ht length
  have full : (bank :: seg :: entries).length = 66 := by simp [length]
  have each := entriesWellFormed_iff entries 16 length
  rw [exec_writeSegment (full.symm ▸ ht) full]
  refine ⟨fun bad => by rw [writeSegmentRule_badArg num bad], fun id i hb hi => ?_⟩
  rw [hb, writeSegmentRule_bank num id hi, heard_route]
  refine ⟨fun other => by rw [if_pos (bankLoading_eq_false other)], fun plan loading => ?_⟩
  rw [if_neg (by simp [bankLoading_of_loading loading])]
  refine ⟨fun ⟨j, hj, bad⟩ => ?_, fun good => ⟨(writeSegment (bankOf s.route id) i entries).mem, ?_, fun wf => ?_⟩⟩
  · have ill : entriesWellFormed entries = false := by
      rw [← Bool.not_eq_true, each]
      exact fun all => Bool.false_ne_true (bad.symm.trans (all j hj))
    rw [if_pos ill]
  · dsimp only
    rw [← advanceSeg_eq, ← loading, if_neg (by simp [each.mpr good])]
    rfl
  · exact ⟨writeSegment_wf _ wf i entries, memRead_writeSegment wf i length⟩

/-- Settles O56: the request starts the check or is refused, and the completion compares the CRC-16. -/
theorem planCommitted : Obligations.PlanCommitted := by
  refine ⟨fun addr num bank expected s ht => ?_, fun id expected num plan s inFlight committing => ?_, fun s idle => ?_⟩
  · rw [exec_commitPlan (args := bank :: two expected) ht rfl, ← heard_route .u s]
    refine ⟨fun bad => by rw [commitPlanRule_badArg num bad], fun id hb => ⟨fun other => ?_, fun plan loading => ?_⟩⟩
    · rw [hb, commitPlanRule_bankState num id other]
    · rw [hb, commitPlanRule_loading num id loading]
  · have run : exec .bankCheckCompletion s = .next (completeCheck ⟨id, expected, num⟩ s) := by
      simp only [exec, execBankCheckCompletion, inFlight]
    rw [run, completeCheck_eq committing]
    exact ⟨fun same => by rw [if_pos same], fun other => by rw [if_neg other]⟩
  · simp only [exec, execBankCheckCompletion, idle]

end Sys2Proof.Safety
end

section
/-! PROOFS. What the tracking unit, the request unit, the timers and the notice channel leave of the line: the ports, the downstream
relay queue and the transmitters (chapters 8 and 9), and where they do so the mode and the address too. -/

namespace Sys2Proof.Machine

open Sys2Proof.Safety

/-- What the soundness of the link reads of a port: all but its error flags. -/
def portView (l : LinkPort) : LinkPort := { l with flags := ⟨false, false, false, false, false⟩ }

/-- What the soundness of the link reads of the state. -/
def linkView (s : State) : Bool × LinkPort × LinkPort × List Frame × Transmitter × Transmitter :=
  (s.resetHeld, portView s.links.u, portView s.links.d, s.relay.downQueue, s.relay.txU, s.relay.txD)

/-- What most events leave alone: the link, the mode with its cause and its pin, and the address. -/
def lineView (s : State) : (Bool × LinkPort × LinkPort × List Frame × Transmitter × Transmitter) × ModeControl × BitVec 6 :=
  (linkView s, s.control, s.relay.address)

theorem linkView_of_lineView {s t : State} (h : lineView t = lineView s) : linkView t = linkView s := congrArg Prod.fst h

theorem control_of_lineView {s t : State} (h : lineView t = lineView s) : t.control = s.control := congrArg (·.2.1) h

theorem address_of_lineView {s t : State} (h : lineView t = lineView s) : t.relay.address = s.relay.address := congrArg (·.2.2) h

/-! ## Edges, closes and window ends -/

theorem removeRecord_lineView (p : ItemRecord → Bool) (r : ItemRecord) (o : OutcomeKind) (x : Pos) (s : State) :
    lineView (removeRecord p r o x s) = lineView s := by simp [lineView, linkView]

theorem handOff_lineView (p : ItemRecord → Bool) (r : ItemRecord) (o : OutcomeKind) (x : Pos) (s : State) :
    lineView (handOff p r o x s) = lineView s := by
  unfold handOff
  split <;> exact removeRecord_lineView ..

theorem exitLeading_lineView (x : Pos) (s : State) : lineView (exitLeading x s) = lineView s := by
  dsimp only [exitLeading, exitMissed, exitPassed]
  split
  · rfl
  · split <;> split
    · exact removeRecord_lineView ..
    · exact handOff_lineView ..
    · exact removeRecord_lineView ..
    · exact handOff_lineView ..

theorem confirmLeading_lineView (k : OutletId) (x : Pos) (s : State) : lineView (confirmLeading k x s) = lineView s := by
  unfold confirmLeading
  split
  · split
    · exact removeRecord_lineView ..
    · rfl
  · rfl

theorem entryLeading_lineView (x : Pos) (s : State) : lineView (entryLeading x s) = lineView s :=
  matchEntry_keeps (P := fun t => lineView t = lineView s) (Q := fun t => lineView t = lineView s)
    (fun _ _ _ ht => (removeRecord_lineView ..).trans ht)
    (fun _ ht => by
      unfold createStray
      split <;> exact ht)
    (fun _ _ _ ht => ht) _ rfl

theorem resolve_lineView (x : Pos) (s : State) : lineView (resolve x s) = lineView s := by
  have bound (k : OutletId) (p : Pos) (len : BitVec 16) (r : ItemRecord) : lineView (bindOutlet k x p len r s) = lineView s := by
    dsimp only [bindOutlet]
    split
    · rfl
    · split <;> rfl
  unfold resolve
  split
  · rfl
  · split
    · dsimp only
      split
      · rfl
      · exact bound ..
    · rfl

theorem takeEdge_lineView (e : EyeId) (b : Bool) (x : Pos) (s : State) : lineView (takeEdge e b x s) = lineView s := by
  dsimp only [takeEdge, trackEdge]
  split
  · split
    · exact entryLeading_lineView ..
    · exact resolve_lineView ..
    · exact exitLeading_lineView ..
    · rfl
    · exact confirmLeading_lineView ..
    · rfl
  · rfl

theorem edgeCommand_lineView (e : EyeId) (b : Bool) (s : State) : lineView (edgeCommand e b s) = lineView s := by
  unfold edgeCommand
  split
  · exact takeEdge_lineView ..
  · rfl

theorem takeWaitingEdge_lineView (e : EyeId) (s : State) : lineView (takeWaitingEdge e s) = lineView s := by
  unfold takeWaitingEdge
  split
  · exact takeEdge_lineView ..
  · split
    · exact takeEdge_lineView ..
    · rfl

theorem closeResolved_lineView (p : ItemRecord → Bool) (r : ItemRecord) (s : State) :
    lineView (closeResolved p r s) = lineView s := by
  dsimp only [closeResolved]
  split <;> exact removeRecord_lineView ..

/-! ## ITEMs -/

theorem offerTally_lineView (t : Tally) (s : State) : lineView (offerTally t s) = lineView s := by simp [lineView, linkView]

theorem takeItem_lineView (payload : List Byte) (s : State) : lineView (takeItem payload s) = lineView s := by
  have tracked (i : ItemFields) : lineView (trackItem i s) = lineView s := by
    unfold trackItem
    split
    · rfl
    · split
      · rfl
      · exact offerTally_lineView ..
  have relayed (i : ItemFields) : lineView (outOfService i s) = lineView s := by
    unfold outOfService
    split
    · exact offerTally_lineView ..
    · split
      · rfl
      · exact offerTally_lineView ..
  unfold takeItem
  split
  · rfl
  · split
    · exact tracked _
    · exact relayed _

/-! ## Modes entered, counts and ticks -/

theorem flush_linkView (s : State) : linkView (flush s) = linkView s := by rw [flush_eq]; rfl

theorem stopEffect_linkView (s : State) : linkView (stopEffect s) = linkView s := flush_linkView s

theorem takeFault_linkView (c : Cause) (s : State) : linkView (takeFault c s) = linkView s := by
  by_cases hm : s.control.mode = .tracking
  · rw [takeFault_eq c s hm]
    rfl
  · exact congrArg linkView (if_neg hm)

theorem takeDue_linkView (d : Due) (s : State) : linkView (takeDue d s) = linkView s := by
  cases d with
  | edge e => exact linkView_of_lineView (takeWaitingEdge_lineView e s)
  | approachClose r => exact linkView_of_lineView (removeRecord_lineView ..)
  | confirmClose r => exact linkView_of_lineView (closeResolved_lineView _ r s)
  | exitClose r => exact linkView_of_lineView (closeResolved_lineView _ r s)
  | windowEnd k => rfl
  | blocked e => exact takeFault_linkView _ s
  | reversal => exact takeFault_linkView _ s

theorem settleFuel_linkView (n : Nat) (s : State) : linkView (settleFuel n s) = linkView s := by
  induction n generalizing s with
  | zero => rfl
  | succ n ih =>
    unfold settleFuel
    split
    · rfl
    · rw [ih, takeDue_linkView]

theorem takeExpiry_linkView (s : State) : linkView (takeExpiry s) = linkView s := by
  dsimp only [takeExpiry]
  split <;> rfl

theorem tick_linkView (s : State) : linkView (tick s) = linkView s := by
  have watched : linkView (tickWatch s) = linkView s := by
    unfold tickWatch
    split
    · rfl
    · split <;> rfl
  have acked (t : State) : linkView (tickAck t) = linkView t := by rw [tickAck_eq]; rfl
  exact (acked _).trans watched

theorem completeCheck_linkView (k : BankCheck) (s : State) : linkView (completeCheck k s) = linkView s := by
  dsimp only [completeCheck]
  split <;> rfl

/-! ## Requests -/

theorem readObjectRule_lineView (num : Byte) (args : List Byte) (s : State) : lineView (readObjectRule num args s) = lineView s := by
  unfold readObjectRule
  split
  · split
    · dsimp only
      split <;> rfl
    · rfl
  · rfl

theorem writeConfigRule_lineView (num : Byte) (args : List Byte) (s : State) : lineView (writeConfigRule num args s) = lineView s := by
  dsimp only [writeConfigRule]
  split
  · rfl
  · split
    · rfl
    · split
      · rfl
      · split <;> rfl

theorem readCountersRule_lineView (num : Byte) (args : List Byte) (s : State) :
    lineView (readCountersRule num args s) = lineView s := by
  dsimp only [readCountersRule]
  split
  · split
    · split <;> rfl
    · rfl
  · rfl

theorem openPlanRule_lineView (num : Byte) (args : List Byte) (s : State) : lineView (openPlanRule num args s) = lineView s := by
  dsimp only [openPlanRule]
  split
  · split
    · rfl
    · split
      · rfl
      · split
        · rfl
        · split <;> rfl
  · rfl

theorem writeSegmentRule_lineView (num : Byte) (args : List Byte) (s : State) :
    lineView (writeSegmentRule num args s) = lineView s := by
  dsimp only [writeSegmentRule]
  split
  · split
    · rfl
    · split
      · split
        · rfl
        · split <;> rfl
      · rfl
  · rfl

theorem commitPlanRule_lineView (num : Byte) (args : List Byte) (s : State) : lineView (commitPlanRule num args s) = lineView s := by
  dsimp only [commitPlanRule]
  split
  · split
    · rfl
    · split <;> rfl
  · rfl

theorem dropPlanRule_lineView (num : Byte) (args : List Byte) (s : State) : lineView (dropPlanRule num args s) = lineView s := by
  dsimp only [dropPlanRule]
  split
  · split
    · rfl
    · split <;> rfl
  · rfl

theorem startTrackingRule_linkView (num : Byte) (s : State) : linkView (startTrackingRule num s) = linkView s := by
  unfold startTrackingRule
  split <;> rfl

theorem stopTrackingRule_linkView (num : Byte) (s : State) : linkView (stopTrackingRule num s) = linkView s := by
  unfold stopTrackingRule
  split
  · exact stopEffect_linkView s
  · rfl

theorem recoverRule_linkView (num : Byte) (s : State) : linkView (recoverRule num s) = linkView s := by
  unfold recoverRule
  split <;> rfl

theorem ackNoticeRule_lineView (num : Byte) (args : List Byte) (s : State) : lineView (ackNoticeRule num args s) = lineView s := by
  dsimp only [ackNoticeRule]
  split
  · split
    · split <;> rfl
    · rfl
  · rfl

theorem setNoticeMaskRule_lineView (num : Byte) (args : List Byte) (s : State) :
    lineView (setNoticeMaskRule num args s) = lineView s := by
  dsimp only [setNoticeMaskRule]
  split <;> rfl

theorem fireTestRule_lineView (num : Byte) (args : List Byte) (s : State) : lineView (fireTestRule num args s) = lineView s := by
  dsimp only [fireTestRule]
  split
  · rfl
  · split
    · split
      · rfl
      · split
        · rfl
        · split <;> rfl
    · rfl

/-- The codes that ask for a change of the mode (Figure 6-1). -/
def modeRequest : RequestCode → Bool
  | .startTracking | .stopTracking | .recover | .restart => true
  | _ => false

theorem owningRule_lineView {code : RequestCode} (num : Byte) (args : List Byte) (s : State) (h : modeRequest code = false) :
    lineView (owningRule code num args s) = lineView s := by
  cases code with
  | readObject => exact readObjectRule_lineView num args s
  | writeConfig => exact writeConfigRule_lineView num args s
  | readCounters => exact readCountersRule_lineView num args s
  | openPlan => exact openPlanRule_lineView num args s
  | writeSegment => exact writeSegmentRule_lineView num args s
  | commitPlan => exact commitPlanRule_lineView num args s
  | dropPlan => exact dropPlanRule_lineView num args s
  | ackNotice => exact ackNoticeRule_lineView num args s
  | setNoticeMask => exact setNoticeMaskRule_lineView num args s
  | fireTest => exact fireTestRule_lineView num args s
  | startTracking | stopTracking | recover | restart => cases h

theorem owningRule_linkView (code : RequestCode) (num : Byte) (args : List Byte) (s : State) :
    linkView (owningRule code num args s) = linkView s := by
  cases code with
  | startTracking => exact startTrackingRule_linkView num s
  | stopTracking => exact stopTrackingRule_linkView num s
  | recover => exact recoverRule_linkView num s
  | restart => rfl
  | _ => exact linkView_of_lineView (owningRule_lineView num args s rfl)

theorem executeRequest_linkView (num code : Byte) (args : List Byte) (s : State) :
    linkView (executeRequest num code args s) = linkView s := by
  unfold executeRequest
  split
  · rfl
  · split
    · split
      · exact owningRule_linkView ..
      · rfl
    · exact owningRule_linkView ..

theorem answerRequest_linkView (num code : Byte) (args : List Byte) (s : State) :
    linkView (answerRequest num code args s) = linkView s := by
  unfold answerRequest
  split
  · split
    · rfl
    · exact executeRequest_linkView ..
  · exact executeRequest_linkView ..

theorem takeAddressedPayload_linkView (payload : List Byte) (s : State) : linkView (takeAddressedPayload payload s) = linkView s := by
  unfold takeAddressedPayload
  split
  · unfold takeAddressed
    split
    · rfl
    · split
      · exact answerRequest_linkView ..
      · split
        · rfl
        · split
          · exact answerRequest_linkView ..
          · rfl
  · rfl

theorem takeBroadcast_linkView (payload : List Byte) (s : State) : linkView (takeBroadcast payload s) = linkView s := by
  unfold takeBroadcast
  split
  · split
    · split <;> rfl
    · split
      · exact stopEffect_linkView s
      · rfl
    · rfl
    · rfl
  · rfl

end Sys2Proof.Machine
end

section
/-! PROOFS. Every step keeps the ports and the downstream relay queue sound (R116, R136, R137, R143, R148, R156): the events of a port
by what they do to its receive side, every other event by leaving the link as it is. -/

namespace Sys2Proof.Safety

open Sys2Proof.Machine

/-! ## Ports that receive -/

/-- A frame just opened holds no byte (R139). -/
theorem assemblySound_opened : ∀ bytes, Framer.inFrame [] = .inFrame bytes → assemblySound bytes := by
  rintro _ ⟨⟩
  trivial

/-- A byte that does not make the frame oversize keeps what its length allows (R143). -/
theorem assemblySound_append {bytes : List Byte} {x : Byte} (h : assemblySound bytes) (fits : oversizeByte bytes x = false) :
    assemblySound (bytes ++ [x]) := by
  match bytes with
  | [] => trivial
  | [_] => trivial
  | [_, _] =>
    exact ⟨Nat.not_lt.mp (of_decide_eq_false fits), Nat.zero_le _⟩
  | _ :: _ :: n :: rest =>
    obtain ⟨length, room⟩ := h
    have short : rest.length < n.toNat + 2 := Nat.not_le.mp (of_decide_eq_false fits)
    exact ⟨length, by simpa using Nat.le_of_lt_succ short⟩

/-- The view of a port is sound where the port is. -/
theorem linkSound_portView (l : LinkPort) : LinkSound (portView l) ↔ LinkSound l :=
  ⟨fun h => ⟨h.down, h.up⟩, fun h => ⟨h.down, h.up⟩⟩

namespace LinksSound

variable {s t : State}

theorem congr (h : LinksSound s) (same : linkView t = linkView s) : LinksSound t := by
  simp only [linkView, Prod.mk.injEq] at same
  obtain ⟨resetHeld, u, d, queue, txU, txD⟩ := same
  have upU : t.links.u.up = s.links.u.up := (congrArg LinkPort.up u :)
  have upD : t.links.d.up = s.links.d.up := (congrArg LinkPort.up d :)
  exact
    { u := (linkSound_portView _).mp (u ▸ (linkSound_portView _).mpr h.u)
      d := (linkSound_portView _).mp (d ▸ (linkSound_portView _).mpr h.d)
      downQueue := by rw [upD, queue]; exact h.downQueue
      held := by rw [resetHeld, upU, upD, txU, txD]; exact h.held }

/-- A port of either side (R136, R137). -/
theorem port (h : LinksSound s) (p : Port) : LinkSound (s.links.get p) := by
  cases p with
  | u => exact h.u
  | d => exact h.d

theorem notHeld_of_up (h : LinksSound s) {p : Port} (up : (s.links.get p).up = true) : s.resetHeld = false := by
  by_contra held
  obtain ⟨downU, downD, -, -⟩ := h.held (by simpa using held)
  cases p with
  | u => exact absurd (downU.symm.trans up) nofun
  | d => exact absurd (downD.symm.trans up) nofun

/-- A sound receive side put in the place of a port's: a port D that is DOWN needs an empty queue, and no port is UP under RESET. -/
theorem setLink (h : LinksSound s) (p : Port) {l : LinkPort} (sound : LinkSound l)
    (queue : p = .d → l.up = false → s.relay.downQueue = []) (held : s.resetHeld = true → l.up = false) :
    LinksSound (setLink p l s) := by
  cases p with
  | u => exact ⟨sound, h.d, h.downQueue, fun r => ⟨held r, (h.held r).2⟩⟩
  | d => exact ⟨h.u, sound, queue rfl, fun r => ⟨(h.held r).1, held r, (h.held r).2.2⟩⟩

theorem rxError (h : LinksSound s) (p : Port) (e : RxKind) : LinksSound (takeRxError p e s) :=
  h.congr (by cases p <;> rfl)

/-- Only a port D that is UP takes a frame for the queue (R156). -/
theorem offerDown (h : LinksSound s) (f : Frame) : LinksSound (offerDown f s) := by
  unfold Machine.offerDown
  split
  · rename_i room
    have up : s.links.d.up = true := (Bool.and_eq_true_iff.mp room).1
    exact ⟨h.u, h.d, fun down => absurd (up.symm.trans down) nofun, h.held⟩
  · exact h.congr rfl

/-! ## Ports that come up -/

/-- A DOWN port counts symbols of its alignment run below 32 (R136). -/
theorem alignRun (h : LinksSound s) {p : Port} (down : (s.links.get p).up = false) {n : Nat} (fewer : n < 32) :
    LinksSound (setAlignRun p n s) := by
  obtain ⟨-, run, framer⟩ := (h.port p).down down
  refine h.setLink p ⟨fun _ => ⟨fewer, run, framer⟩, fun up => absurd (down.symm.trans up) nofun⟩ ?_ fun _ => down
  rintro rfl -
  exact h.downQueue down

theorem goesUp (h : LinksSound s) (p : Port) (released : s.resetHeld = false) : LinksSound (portGoesUp p s) := by
  have up : LinkSound { s.links.get p with up := true, alignRun := 32, violationRun := 0, framer := .discard } :=
    ⟨nofun, fun _ => ⟨Nat.zero_lt_succ 3, nofun⟩⟩
  exact (h.setLink p up (fun _ => nofun) fun held => absurd (released.symm.trans held) nofun).congr rfl

theorem align (h : LinksSound s) {p : Port} (released : s.resetHeld = false) (down : (s.links.get p).up = false) (sym : Symbol) :
    LinksSound (alignSymbol p sym s) := by
  have counted : LinksSound (if Config.alignSymbols ≤ (s.links.get p).alignRun + 1 then portGoesUp p s
      else setAlignRun p ((s.links.get p).alignRun + 1) s) := by
    split
    · exact h.goesUp p released
    · exact h.alignRun down (Nat.not_le.mp ‹_›)
  cases sym with
  | violation => exact h.alignRun down (by decide)
  | _ => exact counted

end LinksSound

/-- A sound link whose port `p` receives. -/
structure Receiving (p : Port) (s : State) : Prop where
  sound : LinksSound s
  hears : Hears p s

namespace Receiving

variable {p : Port} {s : State} (h : Receiving p s)
include h

/-- A port that stays UP with its violation run under 4 and a sound frame in assembly. -/
theorem setLink {l : LinkPort} (up : l.up = true) (run : l.violationRun < 4)
    (assembly : ∀ bytes, l.framer = .inFrame bytes → assemblySound bytes) : Receiving p (setLink p l s) where
  sound := h.sound.setLink p ⟨fun down => absurd (up.symm.trans down) nofun, fun _ => ⟨run, assembly⟩⟩
    (fun _ down => absurd (up.symm.trans down) nofun) fun held => absurd (h.hears.1.symm.trans held) nofun
  hears := ⟨h.hears.1, by simpa using up⟩

/-- The framer and the violation run of a port that receives (R137, R139). -/
theorem framed {f : Framer} {n : Nat} (fewer : n < 4) (assembly : ∀ bytes, f = .inFrame bytes → assemblySound bytes) :
    Receiving p (framed p f n s) :=
  h.setLink h.hears.2 fewer assembly

theorem framer (f : Framer) (assembly : ∀ bytes, f = .inFrame bytes → assemblySound bytes) : Receiving p (setFramer p f s) :=
  h.setLink h.hears.2 ((h.sound.port p).up h.hears.2).1 assembly

theorem violationRun {n : Nat} (fewer : n < 4) : Receiving p (setViolationRun p n s) :=
  h.setLink h.hears.2 fewer ((h.sound.port p).up h.hears.2).2

theorem rxError (e : RxKind) : Receiving p (takeRxError p e s) where
  sound := h.sound.rxError p e
  hears := by cases p <;> exact h.hears

/-! ## Ports that go down -/

theorem wentDown : LinksSound (wentDown p s) := by
  have down : LinkSound { s.links.get p with up := false, alignRun := 0, violationRun := 0, framer := .discard } :=
    ⟨fun _ => ⟨Nat.zero_lt_succ 31, rfl, rfl⟩, nofun⟩
  cases p with
  | u => exact (h.sound.setLink .u down nofun fun _ => rfl).congr rfl
  | d => exact ⟨h.sound.u, down, fun _ => rfl, fun held => absurd (h.hears.1.symm.trans held) nofun⟩

theorem goesDown : LinksSound (portGoesDown p s) := by
  by_cases assembles : Assembles p s
  · rw [portGoesDown_eq_of_assembles p s assembles, ← takeRxError_eq]
    exact (h.rxError _).wentDown
  · rw [portGoesDown_eq_of_not_assembles p s assembles]
    exact h.wentDown

theorem violation : LinksSound (violationSymbol p s) := by
  have erred := h.rxError (if assembling (s.links.get p) then .truncated else .violation)
  rw [violationSymbol_eq, ← takeRxError_eq]
  dsimp only
  split
  · exact erred.wentDown
  · exact (erred.framed (f := .discard) (by omega) nofun).sound

/-! ## Frames and errors received -/

theorem request (f : Frame) : LinksSound (takeRequest f s) := by
  unfold takeRequest
  split
  · exact h.sound.congr (takeAddressedPayload_linkView ..)
  · split
    · exact (h.sound.offerDown f).congr (takeBroadcast_linkView ..)
    · exact h.sound.offerDown f

theorem enumerate (f : Frame) : LinksSound (takeEnumerate f s) := by
  dsimp only [takeEnumerate]
  split
  · exact h.sound.congr rfl
  · split
    · exact h.sound.offerDown f
    · refine LinksSound.offerDown (h.sound.congr ?_) _
      split <;> rfl

theorem frameArrival (f : Frame) : LinksSound (frameArrival p f s) := by
  cases p with
  | d =>
    refine h.sound.congr ?_
    dsimp only [Machine.frameArrival, offerUp]
    split <;> rfl
  | u =>
    change LinksSound (frameFromU f s)
    unfold frameFromU
    split
    · exact h.enumerate f
    · split
      · exact h.sound.offerDown f
      · split
        · exact h.request f
        · split
          · exact h.sound.congr (linkView_of_lineView (takeItem_lineView ..))
          · exact h.sound.offerDown f

/-- An error taken with the framer and the violation run that its last symbol leaves (R142, R145). -/
theorem errorFramed (e : RxKind) {f : Framer} {n : Nat} (fewer : n < 4)
    (assembly : ∀ bytes, f = .inFrame bytes → assemblySound bytes) :
    LinksSound (takeRxError p e (setFramer p f (setViolationRun p n s))) :=
  (((h.violationRun fewer).framer f assembly).rxError e).sound

theorem errorEvent (e : RxEvent) : LinksSound (receiveErrorEvent p e s) := by
  unfold receiveErrorEvent
  split
  · exact h.sound
  · cases e with
    | crc | misdirected | oversize => exact h.errorFramed _ (Nat.zero_lt_succ 3) nofun
    | truncated cause =>
      cases cause with
      | violation => exact h.errorFramed _ (Nat.one_lt_succ_succ 2) nofun
      | sof => exact h.errorFramed _ (Nat.zero_lt_succ 3) assemblySound_opened
      | idle | eof => exact h.errorFramed _ (Nat.zero_lt_succ 3) nofun
    | violation cause =>
      cases cause with
      | violation =>
        dsimp only
        split
        · exact h.sound
        · exact h.violation
      | data =>
        dsimp only
        split
        · exact h.errorFramed _ (Nat.zero_lt_succ 3) nofun
        · exact h.sound
      | eof =>
        dsimp only
        split
        · exact ((h.violationRun (Nat.zero_lt_succ 3)).rxError _).sound
        · exact h.sound

/-- A symbol other than a violation, by the framer's state (Table 8-2). -/
theorem plainSymbol (sym : Symbol) : LinksSound (plainSymbol p sym s) := by
  have run := h.violationRun (Nat.zero_lt_succ 3)
  dsimp only [Machine.plainSymbol]
  split
  · exact ((run.rxError _).framer .discard nofun).sound
  · exact run.sound
  · exact (run.framer _ assemblySound_opened).sound
  · exact (run.rxError _).sound
  · rename_i held x framer -- the next byte of a frame in assembly
    split
    · exact ((run.rxError _).framer .discard nofun).sound
    · refine (run.framer _ fun _ same => ?_).sound
      cases same
      exact assemblySound_append (((h.sound.port p).up h.hears.2).2 held framer) (Bool.eq_false_of_not_eq_true ‹_›)
  · exact ((run.rxError _).framer .between nofun).sound
  · exact ((run.rxError _).framer _ assemblySound_opened).sound
  · have between := run.framer .between nofun -- the EOF of a frame in assembly
    split
    · exact (between.rxError _).sound
    · exact between.frameArrival _
  · exact run.sound
  · exact (run.framer .between nofun).sound
  · exact (run.framer _ assemblySound_opened).sound
  · exact (run.framer .between nofun).sound
  · exact run.violation

end Receiving

namespace LinksSound

variable {s : State} (h : LinksSound s)
include h

/-! ## The events of the ports and the transmitters -/

theorem receiveFrame (p : Port) (f : Frame) : LinksSound (receiveFrame p f s) := by
  by_cases hears : Hears p s
  · have r : Receiving p s := ⟨h, hears⟩
    have cut : Receiving p (if assembling (s.links.get p) then takeRxError p .truncated s else s) := by
      split
      · exact r.rxError _
      · exact r
    have between := (cut.violationRun (Nat.zero_lt_succ 3)).framer .between nofun
    dsimp only [Machine.receiveFrame]
    split
    · exact h
    · split
      · exact (between.rxError _).sound
      · split
        · exact (between.rxError _).sound
        · exact between.frameArrival f
  · rw [receiveFrame_of_not_hears hears]
    exact h

theorem receiveSymbol (p : Port) (sym : Symbol) : LinksSound (receiveSymbol p sym s) := by
  unfold Machine.receiveSymbol
  split
  · exact h
  · have released : s.resetHeld = false := Bool.eq_false_of_not_eq_true ‹_›
    split
    · have r : Receiving p s := ⟨h, released, ‹_›⟩
      split
      · exact r.violation
      · exact r.plainSymbol _
    · exact h.align released (Bool.eq_false_of_not_eq_true ‹_›) sym

theorem receiveError (p : Port) (e : RxEvent) : LinksSound (receiveErrorEvent p e s) := by
  by_cases hears : Hears p s
  · exact Receiving.errorEvent ⟨h, hears⟩ e
  · unfold receiveErrorEvent
    rw [if_pos (by cases hr : s.resetHeld <;> cases hu : (s.links.get p).up <;> simp_all [Hears])]
    exact h

theorem portDown {p : Port} {cause : DownCause} {t : State} (run : exec (.portDown p cause) s = .next t) : LinksSound t := by
  cases run
  split
  · exact h
  · have released : s.resetHeld = false := Bool.eq_false_of_not_eq_true ‹_›
    split
    · split
      · exact Receiving.goesDown ⟨h, released, ‹_›⟩
      · exact h.alignRun (Bool.eq_false_of_not_eq_true ‹_›) (Nat.zero_lt_succ 31)
    · split
      · exact Receiving.violation ⟨h, released, (Bool.and_eq_true_iff.mp ‹_›).1⟩
      · exact h

/-- A sending that begins on a port that is UP, so not under RESET, with what is left of the downstream relay queue where D is UP. -/
theorem sent {t : State} {p : Port} (up : (s.links.get p).up = true) (resetHeld : t.resetHeld = s.resetHeld)
    (links : t.links = s.links) (queue : s.links.d.up = false → t.relay.downQueue = s.relay.downQueue) : LinksSound t where
  u := links ▸ h.u
  d := links ▸ h.d
  downQueue down := by
    have down : s.links.d.up = false := links ▸ down
    rw [queue down, h.downQueue down]
  held held := absurd ((h.notHeld_of_up up).symm.trans (resetHeld.symm.trans held)) nofun

theorem uGrant {t : State} (run : exec .uTransmitGrant s = .next t) : LinksSound t := by
  cases run
  split
  · have up : (s.links.get .u).up = true := (Bool.and_eq_true_iff.mp ‹_›).1
    have turn : LinksSound (grantUTurn s) := by
      unfold grantUTurn
      split
      · exact h
      · exact h.sent up rfl rfl fun _ => rfl
      · exact h.sent up rfl rfl fun _ => rfl
      · split <;> exact h.sent up rfl rfl fun _ => rfl
    unfold grantU
    split
    · exact h.sent up rfl rfl fun _ => rfl
    · split
      · exact h.sent up rfl rfl fun _ => rfl
      · exact turn
  · exact h

theorem dGrant {t : State} (run : exec .dTransmitGrant s = .next t) : LinksSound t := by
  cases run
  split
  · have up : (s.links.get .d).up = true := (Bool.and_eq_true_iff.mp ‹_›).1
    have still : ∀ q, s.links.d.up = false → q = s.relay.downQueue := fun _ down => absurd (up.symm.trans down) nofun
    unfold grantD
    split
    · exact h
    · exact h.sent up rfl rfl (still _)
    · exact h.sent up rfl rfl (still _)
    · split <;> exact h.sent up rfl rfl (still _)
  · exact h

/-- Under RESET no transmitter is sending, so that none is brought back to IDLE (R135). -/
theorem completeSending (p : Port) : LinksSound (completeSending p s) := by
  have idle {t : State} (resetHeld : t.resetHeld = s.resetHeld) (links : t.links = s.links)
      (queue : t.relay.downQueue = s.relay.downQueue) (released : ¬ s.resetHeld = true) : LinksSound t :=
    ⟨links ▸ h.u, links ▸ h.d, by rw [links, queue]; exact h.downQueue, fun held => absurd (resetHeld ▸ held) released⟩
  have timed (t : State) : linkView (startAckTimer t) = linkView t := by
    unfold startAckTimer
    split <;> rfl
  unfold Machine.completeSending
  split
  · split
    · rename_i sending
      have ended : LinksSound { s with relay := { s.relay with txU := .idle } } :=
        idle rfl rfl rfl fun held => absurd (sending.symm.trans (h.held held).2.2.1) nofun
      exact ended.congr (timed _)
    · rename_i sending
      exact idle rfl rfl rfl fun held => absurd (sending.symm.trans (h.held held).2.2.1) nofun
    · exact h
  · split
    · rename_i sending
      exact idle rfl rfl rfl fun held => absurd (sending.symm.trans (h.held held).2.2.2) nofun
    · exact h

/-! ## Resets and the dispatch -/

omit h in
theorem coldHeld (s : State) : LinksSound (coldHeld s) :=
  ⟨linkSound_cold, linkSound_cold, fun _ => rfl, fun _ => ⟨rfl, rfl, rfl, rfl⟩⟩

theorem releaseReset : LinksSound (releaseReset s) := ⟨h.u, h.d, h.downQueue, nofun⟩

/-- Every command keeps the link sound. -/
theorem exec {c : Instr} {t : State} (run : exec c s = .next t) : LinksSound t := by
  cases hq : requestOf c with
  | some q =>
    obtain ⟨addr, num, code, args⟩ := q
    rw [exec_requestOf s hq] at run
    cases run
    exact h.receiveFrame _ _
  | none =>
    cases c with
    | powerOn =>
      cases run
      split
      · exact coldHeld s
      · exact (coldHeld s).releaseReset
    | resetAsserted => cases run; exact coldHeld s
    | resetReleased =>
      cases run
      split
      · exact h.releaseReset
      · exact h
    | portUp p =>
      cases run
      split
      · exact h
      · rename_i receives
        exact h.goesUp p (by simp_all)
    | portDown p cause => exact h.portDown run
    | receiveError p e => cases run; exact h.receiveError p e
    | symbolReceived p sym => cases run; exact h.receiveSymbol p sym
    | item addr payload | enumerate v payload | downstreamRelay f | upstreamRelay f => cases run; exact h.receiveFrame _ _
    | uTransmitGrant => exact h.uGrant run
    | dTransmitGrant => exact h.dGrant run
    | sendingComplete p => cases run; exact h.completeSending p
    | readRoute bank addr num args => cases bank <;> cases hq
    | forwardCount | backwardCount =>
      cases run
      refine h.congr ?_
      split
      · rfl
      · exact settleFuel_linkView ..
    | eyePinChange e high =>
      cases run
      refine h.congr ?_
      split
      · rfl
      · split
        · rfl
        · exact linkView_of_lineView (takeWaitingEdge_lineView e s)
    | encoderDoubleChange | laneFullChange k high => cases run; exact h.congr rfl
    | entryLeadingEdge | entryTrailingEdge | confirmLeadingEdge k | confirmTrailingEdge k | exitLeadingEdge
    | exitTrailingEdge => cases run; exact h.congr (linkView_of_lineView (edgeCommand_lineView ..))
    | reversal | blockedLimitReached e =>
      cases run
      split
      · exact h.congr (takeFault_linkView ..)
      · exact h
    | approachWindowClose =>
      cases run
      split
      · exact h.congr (linkView_of_lineView (removeRecord_lineView ..))
      · exact h
    | confirmWindowClose | exitWindowClose =>
      cases run
      split
      · exact h.congr (linkView_of_lineView (closeResolved_lineView ..))
      · exact h
    | firingWindowEnd k | testFireEnd k => cases run; split <;> exact h.congr rfl
    | bankCheckCompletion =>
      cases run
      split
      · exact h.congr (completeCheck_linkView ..)
      · exact h
    | ackTimeout =>
      cases run
      split
      · exact h.congr (takeExpiry_linkView s)
      · exact h
    | stall | noticeChoice =>
      cases run
      split
      · split <;> exact h.congr rfl
      · exact h
    | _ => cases hq

end LinksSound

/-- Settles O10: a step is a tick or a command, and each keeps the link sound. -/
theorem stepKeepsLinksSound : Obligations.StepKeepsLinksSound := by
  intro s t h run
  unfold step at run
  split at run
  · cases run
    exact h.congr (tick_linkView s)
  · rename_i rest _
    exact LinksSound.exec (s := { s with pending := rest }) (h.congr rfl) run

end Sys2Proof.Safety
end

section
/-! PROOFS. START_TRACKING (R104 to R106): the conditions of R105 in their order, and the mode entered. -/

namespace Sys2Proof.Machine

open Sys2Proof.Safety

/-! ## The conditions of R105 -/

/-- The first present outlet at which a condition on each present outlet fails. -/
def firstFailing (c : StationConfig) (good : OutletId → Bool) : Option OutletId := (presentOutlets c).find? (fun k => !good k)

theorem firstFailing_eq_none_iff (c : StationConfig) (good : OutletId → Bool) :
    firstFailing c good = none ↔ outletIds.all (fun k => decide (c.outletsPresent.val ≤ k.val) || good k) = true := by
  simp only [firstFailing, presentOutlets, List.find?_eq_none, List.mem_filter, outletPresent, List.all_eq_true, Bool.or_eq_true,
    decide_eq_true_eq, Bool.not_eq_true', Bool.not_eq_false, and_imp]
  exact forall₂_congr fun k _ => by rw [← Nat.not_lt, ← imp_iff_not_or]

theorem firstFailing_eq_some {c : StationConfig} {good : OutletId → Bool} {k : OutletId} (present : k.val < c.outletsPresent.val)
    (fails : good k = false) (first : ∀ j : OutletId, j.val < k.val → good j = true) : firstFailing c good = some k := by
  rw [firstFailing, presentOutlets, List.find?_filter, show outletIds = List.ofFn (fun i => i) from rfl]
  refine (List.find?_ofFn_eq_some_of_injective (f := fun i : Fin 4 => i) Function.injective_id).mpr ⟨?_, fun j less => ?_⟩
  · simp [outletPresent, present, fails]
  · simp [first j less]

/-- The outlet that a BAD_CONFIG reply names beside condition `n`: conditions 4 and 5 are on each present outlet. -/
def unmetOutlet (c : StationConfig) (n : Nat) : Option OutletId :=
  match n with
  | 4 => firstFailing c (fun k => decide ((c.outlets.get k).fireOffset.toNat < (c.outlets.get k).confirmMin.toNat))
  | 5 => firstFailing c (fun k => decide ((c.outlets.get k).confirmMin.toNat < (c.outlets.get k).confirmMax.toNat))
  | _ => none

theorem conditionHolds_four_iff (c : StationConfig) : conditionHolds c 4 = true ↔ unmetOutlet c 4 = none :=
  (firstFailing_eq_none_iff c fun k => decide ((c.outlets.get k).fireOffset.toNat < (c.outlets.get k).confirmMin.toNat)).symm

theorem conditionHolds_five_iff (c : StationConfig) : conditionHolds c 5 = true ↔ unmetOutlet c 5 = none :=
  (firstFailing_eq_none_iff c fun k => decide ((c.outlets.get k).confirmMin.toNat < (c.outlets.get k).confirmMax.toNat)).symm

/-- The conditions are tested in their order, and the first that is unmet is named (R105). -/
theorem firstUnmet_eq (c : StationConfig) :
    firstUnmet c = ((List.range' 1 7).find? (fun n => !conditionHolds c n)).map (fun n => (n, unmetOutlet c n)) := by
  have one : c.outletsPresent.val < 1 ↔ conditionHolds c 1 = false := by simp [conditionHolds]
  have six : strayPolicyOk c = conditionHolds c 6 := by
    unfold strayPolicyOk conditionHolds
    cases c.strayPolicy <;> rfl
  rw [show List.range' 1 7 = [1, 2, 3, 4, 5, 6, 7] from rfl]
  simp only [List.find?_cons]
  unfold firstUnmet
  rw [if_congr one rfl rfl, six,
    show decide (c.approachMin.toNat < c.approachMax.toNat) = conditionHolds c 2 from rfl,
    show decide (c.exitMin.toNat < c.exitMax.toNat) = conditionHolds c 3 from rfl,
    show (presentOutlets c).find? (fun k => !decide ((c.outlets.get k).fireOffset.toNat < (c.outlets.get k).confirmMin.toNat)) =
      unmetOutlet c 4 from rfl,
    show (presentOutlets c).find? (fun k => !decide ((c.outlets.get k).confirmMin.toNat < (c.outlets.get k).confirmMax.toNat)) =
      unmetOutlet c 5 from rfl,
    show (decide (c.entryFilter.toNat < c.blockedLimit.toNat) && decide (c.exitFilter.toNat < c.blockedLimit.toNat)) =
      conditionHolds c 7 from rfl]
  cases conditionHolds c 1
  · rfl
  cases conditionHolds c 2
  · rfl
  cases conditionHolds c 3
  · rfl
  cases four : unmetOutlet c 4 with
  | some k =>
    rw [Bool.eq_false_of_not_eq_true (mt (conditionHolds_four_iff c).mp (by simp [four]))]
    exact congrArg (fun o => some (4, o)) four.symm
  | none =>
    rw [(conditionHolds_four_iff c).mpr four]
    cases five : unmetOutlet c 5 with
    | some k =>
      rw [Bool.eq_false_of_not_eq_true (mt (conditionHolds_five_iff c).mp (by simp [five]))]
      exact congrArg (fun o => some (5, o)) five.symm
    | none =>
      rw [(conditionHolds_five_iff c).mpr five]
      cases conditionHolds c 6
      · rfl
      cases conditionHolds c 7 <;> rfl

theorem firstUnmet_eq_none_iff (c : StationConfig) : firstUnmet c = none ↔ Consistent c := by
  rw [firstUnmet_eq, Option.map_eq_none_iff, List.find?_range'_eq_none]
  exact forall₂_congr fun n _ => ⟨fun h l => by simpa using h (by omega), fun h l => by simpa using h (by omega)⟩

/-- The outlet byte of a BAD_CONFIG reply. -/
def unmetByte : Option OutletId → Byte
  | some k => byteOf k.val
  | none => 0xFF

theorem firstUnmet_eq_some {c : StationConfig} {n : Nat} {o : Byte} (h : FirstUnmet c n o) :
    ∃ k, firstUnmet c = some (n, k) ∧ o = unmetByte k := by
  obtain ⟨least, most, unmet, before, starts, confirms, others⟩ := h
  have first : (List.range' 1 7).find? (fun n => !conditionHolds c n) = some n :=
    List.find?_range'_eq_some.mpr ⟨by simpa using unmet, List.mem_range'_1.mpr ⟨least, by omega⟩,
      fun j atLeast less => by simpa using before j atLeast less⟩
  refine ⟨unmetOutlet c n, by rw [firstUnmet_eq, first]; rfl, ?_⟩
  by_cases four : n = 4
  · subst four
    obtain ⟨k, rfl, present, fails, earlier⟩ := starts rfl
    rw [show unmetOutlet c 4 = some k from firstFailing_eq_some present (by simpa using fails) (by simpa using earlier)]
    rfl
  · by_cases five : n = 5
    · subst five
      obtain ⟨k, rfl, present, fails, earlier⟩ := confirms rfl
      rw [show unmetOutlet c 5 = some k from firstFailing_eq_some present (by simpa using fails) (by simpa using earlier)]
      rfl
    · rw [others four five, show unmetOutlet c n = none by unfold unmetOutlet; split <;> simp_all]
      rfl

/-! ## The mode entered (R103, R106) -/

/-- A mode other than TRACKING entered: the stall watch is idle (R71, R51). -/
theorem enterMode_eq {m : Mode} (h : m ≠ .tracking) (s : State) :
    enterMode m s = drive { s with control := { s.control with mode := m }, position := { s.position with watch := none } } := by
  rw [enterMode, refreshOutputs_eq]
  simp [syncWatch, watchActive, h]

/-- START_TRACKING executed (R106). -/
theorem startEffect_eq (s : State) : startEffect s = started s := by
  have watch (t : State) (tracking : t.control.mode = .tracking) : syncWatch t = queueNow t.tracking t := setTracking_eq _ t tracking
  rw [startEffect, enterMode, refreshOutputs_eq, watch _ rfl]
  rfl

/-- START_TRACKING is executed in READY with a consistent configuration (R104, R105). -/
theorem startRefusal_eq_none_iff (s : State) : startRefusal s = none ↔ s.control.mode = .ready ∧ Consistent s.config := by
  rw [← firstUnmet_eq_none_iff]
  unfold startRefusal
  by_cases ready : s.control.mode = .ready
  · rw [if_neg (not_not.mpr ready)]
    cases firstUnmet s.config with
    | none => simp [ready]
    | some unmet => simp
  · simp [ready]

end Sys2Proof.Machine

namespace Sys2Proof.Safety

open Sys2Proof.Machine

/-- Settles O57: the request reaches its rule, which refuses it by the mode or the first unmet condition, or starts tracking. -/
theorem trackingStarts : Obligations.TrackingStarts := by
  intro addr num s takes
  have rule : exec (.startTracking addr num []) s = .next (startTrackingRule num (heard .u s)) :=
    exec_of_takes .startTracking rfl takes (.inr rfl)
  refine ⟨fun other => ?_, fun n o ready unmet => ?_, fun ready consistent => ?_⟩
  · rw [rule, startTrackingRule, startRefusal, if_pos (by simpa using other), modeByte_eq, heard_control]
    rfl
  · obtain ⟨k, named, rfl⟩ := firstUnmet_eq_some unmet
    rw [rule, startTrackingRule, startRefusal, if_neg (by simpa using ready), heard_config, named]
    rfl
  · rw [rule, startTrackingRule, (startRefusal_eq_none_iff _).mpr (by simpa using ⟨ready, consistent⟩), ← startEffect_eq]
    rfl

end Sys2Proof.Safety
end

section
/-! PROOFS. ENUMERATE (R103, R149, R152, R156) and the broadcast requests (R108, R151, R164, R170). -/

namespace Sys2Proof.Machine

open Sys2Proof.Safety

/-! ## ENUMERATE -/

theorem takeEnumerate_dropped {f : Frame} (h : f.addr = 0 ∨ 64 ≤ f.addr.toNat) (s : State) : takeEnumerate f s = counted 32 s :=
  if_pos h

theorem takeEnumerate_relayed {f : Frame} (h : f.addr = 63) (s : State) : takeEnumerate f s = relayedDown f s := by
  rw [takeEnumerate, if_neg (by rw [h]; decide), if_pos h, offerDown_eq]

/-- The address taken from an ENUMERATE, with the reply cache emptied (R149, R152). -/
def readdressed (a : BitVec 6) (s : State) : State :=
  { s with relay := { s.relay with address := a }, request := { s.request with cache := none } }

/-- An ENUMERATE of 1 to 62 (R103, R152). -/
theorem takeEnumerate_taken {f : Frame} (least : 1 ≤ f.addr.toNat) (most : f.addr.toNat ≤ 62) (s : State) :
    takeEnumerate f s =
      relayedDown { f with addr := f.addr + 1 }
        (if s.control.mode = .transparent then enterMode .ready (readdressed (f.addr.setWidth 6) s)
          else readdressed (f.addr.setWidth 6) s) := by
  have inRange : ¬ (f.addr = 0 ∨ 64 ≤ f.addr.toNat) := by
    rintro (zero | above)
    · rw [zero] at least
      exact absurd least (by decide)
    · omega
  have relayed : f.addr ≠ 63 := fun same => by
    rw [same] at most
    exact absurd most (by decide)
  rw [takeEnumerate, if_neg inRange, if_neg relayed, ← offerDown_eq]
  rfl

/-! ## Broadcast requests -/

@[simp] theorem relayedDown_control (f : Frame) (s : State) : (relayedDown f s).control = s.control := by
  rw [← offerDown_eq, offerDown_control]

@[simp] theorem relayedDown_config (f : Frame) (s : State) : (relayedDown f s).config = s.config := by
  rw [← offerDown_eq, offerDown_config]

/-- A broadcast REQUEST heard in an addressed mode is relayed, then the request unit's (R151, R164). -/
theorem receiveFrame_broadcast {payload : List Byte} {s : State} (hears : Hears .u s) (fits : payload.length ≤ 80)
    (addressed : s.control.mode ≠ .transparent) (address : s.relay.address.toNat ≤ 62) :
    receiveFrame .u ⟨0x02, 63, payload⟩ s = takeBroadcast payload (relayedDown ⟨0x02, 63, payload⟩ (heard .u s)) := by
  have foreign : 63#8 ≠ addressByte s.relay.address := fun same => by
    have value : (addressByte s.relay.address).toNat = s.relay.address.toNat := BitVec.toNat_setWidth_of_le (by decide)
    rw [← same] at value
    simp at value
    omega
  rw [receiveFrame_eq .u _ s hears, if_neg (Nat.not_lt.mpr fits), if_neg (by change ¬ (!(2 : Byte).msb) = false; decide),
    ← offerDown_eq]
  simp [frameArrival, frameFromU, takeRequest, kindEnumerate, kindRequest, addressed, foreign, Config.broadcastAddress]

theorem takeBroadcast_short {payload : List Byte} (short : payload.length < 2) (s : State) :
    takeBroadcast payload s = counted 31 s := by
  match payload, short with
  | [], _ => rfl
  | [_], _ => rfl

theorem requestByte_of_requestOfByte {code : Byte} {c : RequestCode} (h : requestOfByte code = some c) : code = requestByte c := by
  revert code c
  decide

section

variable {num : Byte} {args : List Byte} {s : State}

theorem takeBroadcast_start (ready : s.control.mode = .ready) (consistent : Consistent s.config) :
    takeBroadcast (num :: 0x20 :: args) s = started s := by
  rw [← startEffect_eq]
  exact if_pos (by rw [(startRefusal_eq_none_iff s).mpr ⟨ready, consistent⟩]; rfl)

theorem takeBroadcast_start_refused (refused : s.control.mode ≠ .ready ∨ ¬ Consistent s.config) :
    takeBroadcast (num :: 0x20 :: args) s = s := by
  refine if_neg fun accepted => ?_
  obtain ⟨ready, consistent⟩ := (startRefusal_eq_none_iff s).mp (Option.isNone_iff_eq_none.mp accepted)
  exact refused.elim (· ready) (· consistent)

theorem takeBroadcast_stop (tracking : s.control.mode = .tracking) : takeBroadcast (num :: 0x21 :: args) s = stopped s := by
  rw [← stopEffect_eq]
  exact if_pos tracking

theorem takeBroadcast_stop_refused (other : s.control.mode ≠ .tracking) : takeBroadcast (num :: 0x21 :: args) s = s := if_neg other

theorem takeBroadcast_restart : takeBroadcast (num :: 0x23 :: args) s = restarted s := restartEffect_eq s

/-- A broadcast of any other code is counted and nothing else (R170). -/
theorem takeBroadcast_ignored {code : Byte} (start : code ≠ 0x20) (stop : code ≠ 0x21) (restart : code ≠ 0x23) :
    takeBroadcast (num :: code :: args) s = counted 31 s := by
  dsimp only [takeBroadcast]
  split
  · exact absurd (requestByte_of_requestOfByte ‹_›) start
  · exact absurd (requestByte_of_requestOfByte ‹_›) stop
  · exact absurd (requestByte_of_requestOfByte ‹_›) restart
  · rfl

end

end Sys2Proof.Machine

namespace Sys2Proof.Safety

open Sys2Proof.Machine

/-- Settles O44. -/
theorem enumerateTaken : Obligations.EnumerateTaken := by
  intro v payload s hears fits
  rw [exec_enumerate hears fits]
  refine ⟨fun dropped => by rw [takeEnumerate_dropped dropped], fun relayed => ?_, fun least most => ?_⟩
  · subst relayed
    rw [takeEnumerate_relayed rfl]
  · rw [takeEnumerate_taken least most, heard_control]
    refine ⟨fun addressed => ?_, fun transparent => ?_⟩
    · rw [if_neg addressed, readdressed, heard_relay, heard_request]
    · rw [if_pos transparent, enterMode_eq (m := .ready) (by decide), readdressed, heard_relay, heard_request,
        ← heard_position .u s, ← heard_control .u s]

/-- Settles O49: a broadcast is relayed, and then executed or counted. -/
theorem broadcastRequests : Obligations.BroadcastRequests := by
  refine ⟨fun payload s short hears addressed address => ?_, fun c num code args s spelled hears fits addressed address => ?_⟩
  · rw [← takeBroadcast_short short, ← receiveFrame_broadcast hears (by omega) addressed address]
    rfl
  · have relayed : exec c s =
        .next (takeBroadcast (num :: code :: args) (relayedDown ⟨0x02, 63, num :: code :: args⟩ (heard .u s))) := by
      rw [exec_requestOf s spelled, ← receiveFrame_broadcast hears (by simp only [List.length_cons]; omega) addressed address]
      rfl
    rw [relayed]
    generalize ht : relayedDown ⟨0x02, 63, num :: code :: args⟩ (heard .u s) = t
    have mode : t.control.mode = s.control.mode := by rw [← ht, relayedDown_control, heard_control]
    have config : t.config = s.config := by rw [← ht, relayedDown_config, heard_config]
    rw [← mode, ← config]
    refine ⟨?_, ?_, ?_, fun start stop restart => by rw [takeBroadcast_ignored start stop restart]⟩
    · rintro rfl
      exact ⟨fun ready consistent => by rw [takeBroadcast_start ready consistent],
        fun refused => by rw [takeBroadcast_start_refused refused]⟩
    · rintro rfl
      exact ⟨fun tracking => by rw [takeBroadcast_stop tracking], fun other => by rw [takeBroadcast_stop_refused other]⟩
    · rintro rfl
      rw [takeBroadcast_restart]

end Sys2Proof.Safety
end

section
/-! PROOFS. Figure 6-1 as a whole: what each command may do to the mode, its cause, the FAULT pin and the address (R102 to R114,
R149). -/

namespace Sys2Proof.Safety

open Sys2Proof.Machine

/-! ## Requests -/

/-- What a REQUEST of a code does to the mode and the address: nothing, or one of the arrows of Figure 6-1 that are requests. -/
inductive RequestMove (code : Byte) (s t : State) : Prop
  | kept (control : t.control = s.control) (address : t.relay.address = s.relay.address)
  | started (asks : code = 0x20) (ready : s.control.mode = .ready) (consistent : Consistent s.config)
      (entered : t.control.mode = .tracking)
  | stopped (asks : code = 0x21) (tracking : s.control.mode = .tracking) (entered : t.control.mode = .ready)
  | recovered (asks : code = 0x22) (lost : s.control.mode = .trackLost) (entered : t.control.mode = .ready)
  | restarted (asks : code = 0x23) (entered : t.control.mode = .ready)

namespace RequestMove

variable (num : Byte) (args : List Byte) (s : State)

theorem startTrackingRule : RequestMove 0x20 s (startTrackingRule num s) := by
  unfold Machine.startTrackingRule
  split
  · exact .kept rfl rfl
  · rename_i accepted
    obtain ⟨ready, consistent⟩ := (startRefusal_eq_none_iff s).mp accepted
    exact .started rfl ready consistent rfl

theorem stopTrackingRule : RequestMove 0x21 s (stopTrackingRule num s) := by
  unfold Machine.stopTrackingRule
  split
  · exact .stopped rfl ‹_› rfl
  · exact .kept rfl rfl

theorem recoverRule : RequestMove 0x22 s (recoverRule num s) := by
  unfold Machine.recoverRule
  split
  · exact .recovered rfl ‹_› rfl
  · exact .kept rfl rfl

theorem owningRule (code : RequestCode) : RequestMove (requestByte code) s (owningRule code num args s) := by
  cases hm : modeRequest code with
  | false =>
    have same := owningRule_lineView num args s hm
    exact .kept (control_of_lineView same) (address_of_lineView same)
  | true =>
    cases code with
    | startTracking => exact startTrackingRule num s
    | stopTracking => exact stopTrackingRule num s
    | recover => exact recoverRule num s
    | restart => exact .restarted rfl rfl
    | _ => cases hm

theorem executeRequest (code : Byte) : RequestMove code s (executeRequest num code args s) := by
  unfold Machine.executeRequest
  split
  · exact .kept rfl rfl
  · rename_i c known
    rw [requestByte_of_requestOfByte known]
    split
    · split
      · exact owningRule num args s c
      · exact .kept rfl rfl
    · exact owningRule num args s c

theorem answerRequest (code : Byte) : RequestMove code s (answerRequest num code args s) := by
  unfold Machine.answerRequest
  split
  · split
    · exact .kept rfl rfl
    · exact executeRequest num args s code
  · exact executeRequest num args s code

theorem takeAddressed (code : Byte) : RequestMove code s (takeAddressed num code args s) := by
  unfold Machine.takeAddressed
  split
  · exact .kept rfl rfl
  · split
    · exact answerRequest num args s code
    · split
      · exact .kept rfl rfl
      · split
        · exact answerRequest num args s code
        · exact .kept rfl rfl

theorem takeBroadcast (code : Byte) : RequestMove code s (takeBroadcast (num :: code :: args) s) := by
  dsimp only [Machine.takeBroadcast]
  split
  · split
    · rename_i known accepted
      obtain ⟨ready, consistent⟩ := (startRefusal_eq_none_iff s).mp (Option.isNone_iff_eq_none.mp accepted)
      exact .started (requestByte_of_requestOfByte known) ready consistent rfl
    · exact .kept rfl rfl
  · split
    · exact .stopped (requestByte_of_requestOfByte ‹_›) ‹_› rfl
    · exact .kept rfl rfl
  · exact .restarted (requestByte_of_requestOfByte ‹_›) rfl
  · exact .kept rfl rfl

end RequestMove

/-! ## Frames of port U -/

/-- What a frame of port U does to the mode and the address: only an ENUMERATE of 1..62 and a REQUEST that the station takes may
change them. -/
inductive FrameMove (f : Frame) (s t : State) : Prop
  | kept (control : t.control = s.control) (address : t.relay.address = s.relay.address)
  | enumerated (kind : f.kind = 0x03) (least : 1 ≤ f.addr.toNat) (most : f.addr.toNat ≤ 62)
      (mode : t.control = s.control ∨ s.control.mode = .transparent ∧ t.control.mode = .ready)
  | requested (kind : f.kind = 0x02) (addressed : s.control.mode ≠ .transparent) (code : Byte)
      (taken : f.addr = s.relay.address.setWidth 8 ∨ f.addr = 63 ∧ code ≠ 0x22)
      (payload : ∃ num args, f.payload = num :: code :: args) (move : RequestMove code s t)

namespace FrameMove

variable {f : Frame} {s t u : State}

theorem of_untouched (same : Untouched s t) : FrameMove f s t := .kept same.control same.address

/-- What comes before the frame and touches neither the mode, the address nor the configuration does not count. -/
theorem after (same : Untouched s t) (move : FrameMove f t u) : FrameMove f s u := by
  cases move with
  | kept control address => exact .kept (control.trans same.control) (address.trans same.address)
  | enumerated kind least most mode => exact .enumerated kind least most (same.control ▸ mode)
  | requested kind addressed code taken payload move =>
    refine .requested kind (same.control ▸ addressed) code (same.address ▸ taken) payload ?_
    cases move with
    | kept control address => exact .kept (control.trans same.control) (address.trans same.address)
    | started asks ready consistent entered => exact .started asks (same.control ▸ ready) (same.config ▸ consistent) entered
    | stopped asks tracking entered => exact .stopped asks (same.control ▸ tracking) entered
    | recovered asks lost entered => exact .recovered asks (same.control ▸ lost) entered
    | restarted asks entered => exact .restarted asks entered

theorem takeEnumerate (kind : f.kind = 0x03) (s : State) : FrameMove f s (takeEnumerate f s) := by
  by_cases inRange : 1 ≤ f.addr.toNat ∧ f.addr.toNat ≤ 62
  · obtain ⟨least, most⟩ := inRange
    refine .enumerated kind least most ?_
    rw [takeEnumerate_taken least most, relayedDown_control]
    split
    · exact .inr ⟨‹_›, rfl⟩
    · exact .inl rfl
  · by_cases relayed : f.addr = 63
    · rw [takeEnumerate_relayed relayed, ← offerDown_eq]
      exact of_untouched (.offerDown f s)
    · have dropped : f.addr = 0 ∨ 64 ≤ f.addr.toNat := by
        have zero : f.addr.toNat = 0 → f.addr = 0 := fun h => BitVec.eq_of_toNat_eq h
        have other : f.addr.toNat ≠ 63 := fun h => relayed (BitVec.eq_of_toNat_eq h)
        by_cases h0 : f.addr.toNat = 0
        · exact .inl (zero h0)
        · exact .inr (by omega)
      rw [takeEnumerate_dropped dropped]
      exact .kept rfl rfl

theorem takeRequest (kind : f.kind = 0x02) (addressed : s.control.mode ≠ .transparent) : FrameMove f s (takeRequest f s) := by
  unfold Machine.takeRequest
  split
  · unfold takeAddressedPayload
    split
    · exact .requested kind addressed _ (.inl ‹_›) ⟨_, _, ‹_›⟩ (RequestMove.takeAddressed _ _ s _)
    · exact .kept rfl rfl
  · have relayed : Untouched s (offerDown f s) := .offerDown f s
    split
    · rename_i broadcast
      refine after relayed ?_
      match payload : f.payload with
      | num :: code :: args =>
        by_cases recover : code = 0x22
        · subst recover
          rw [takeBroadcast_ignored (by decide) (by decide) (by decide)]
          exact .kept rfl rfl
        · exact .requested kind (relayed.control ▸ addressed) code (.inr ⟨broadcast, recover⟩) ⟨num, args, payload⟩
            (RequestMove.takeBroadcast num args _ code)
      | [] | [_] => exact .kept rfl rfl
    · exact of_untouched relayed

theorem frameFromU (f : Frame) (s : State) : FrameMove f s (frameFromU f s) := by
  unfold Machine.frameFromU
  split
  · exact takeEnumerate ‹_› s
  · split
    · exact of_untouched (.offerDown f s)
    · split
      · exact takeRequest ‹_› ‹_›
      · split
        · exact .kept (control_of_lineView (takeItem_lineView ..)) (address_of_lineView (takeItem_lineView ..))
        · exact of_untouched (.offerDown f s)

end FrameMove

/-- A frame that a port receives is taken as it arrives there, or nothing of the mode or the address is touched. -/
theorem receiveFrame_cases (p : Port) (f : Frame) (s : State) :
    Untouched s (receiveFrame p f s) ∨ ∃ u, Untouched s u ∧ receiveFrame p f s = frameArrival p f u := by
  by_cases hears : Hears p s
  · rw [receiveFrame_eq p f s hears]
    split
    · exact .inl ((Untouched.heard p s).trans (.takeRxError p _ _))
    · split
      · exact .inl ((Untouched.heard p s).trans (.takeRxError p _ _))
      · exact .inr ⟨heard p s, .heard p s, rfl⟩
  · rw [receiveFrame_of_not_hears hears]
    exact .inl (.refl s)

/-- The symbol is the EOF of a good frame, and `t` the state in which that frame is taken. -/
def CompletesFrame (p : Port) (sym : Symbol) (s t : State) : Prop :=
  ∃ held f u, sym = .eof ∧ (s.links.get p).framer = .inFrame held ∧ judgeFrame p held = .inr f ∧ Untouched s u
    ∧ t = frameArrival p f u

theorem plainSymbol_cases (p : Port) (sym : Symbol) (s : State) :
    Untouched s (plainSymbol p sym s) ∨ CompletesFrame p sym s (plainSymbol p sym s) := by
  have run := Untouched.setViolationRun p 0 s
  have framed (f : Framer) : Untouched s (setFramer p f (setViolationRun p 0 s)) := run.trans (.setFramer p f _)
  have erred (e : RxKind) : Untouched s (takeRxError p e (setViolationRun p 0 s)) := run.trans (.takeRxError p e _)
  dsimp only [plainSymbol]
  split
  · exact .inl ((erred _).trans (.setFramer p _ _))
  · exact .inl run
  · exact .inl (framed _)
  · exact .inl (erred _)
  · left
    split
    · exact (erred _).trans (.setFramer p _ _)
    · exact framed _
  · exact .inl ((erred _).trans (.setFramer p _ _))
  · exact .inl ((erred _).trans (.setFramer p _ _))
  · split -- the EOF of a frame in assembly
    · exact .inl ((framed _).trans (.takeRxError p _ _))
    · exact .inr ⟨_, _, _, rfl, ‹_›, ‹_›, framed .between, rfl⟩
  · exact .inl run
  · exact .inl (framed _)
  · exact .inl (framed _)
  · exact .inl (framed _)
  · exact .inl (run.trans (.violationSymbol p _))

/-- A symbol other than the EOF of a good frame touches nothing of the mode or the address. -/
theorem receiveSymbol_cases (p : Port) (sym : Symbol) (s : State) :
    Untouched s (receiveSymbol p sym s) ∨ CompletesFrame p sym s (receiveSymbol p sym s) := by
  unfold receiveSymbol
  split
  · exact .inl (.refl s)
  · split
    · split
      · exact .inl (.violationSymbol p s)
      · exact plainSymbol_cases p _ s
    · exact .inl (.alignSymbol p sym s)

/-- A good frame is what its bytes spell (R140). -/
theorem judgeFrame_inr {p : Port} {held : List Byte} {f : Frame} (h : judgeFrame p held = .inr f) :
    ∃ k a n rest, held = k :: a :: n :: rest ∧ f = ⟨k, a, rest.take n.toNat⟩ := by
  unfold judgeFrame at h
  split at h
  · split at h
    · cases h
    · dsimp only at h
      split at h
      · cases h
      · split at h
        · cases h
        · cases h
          exact ⟨_, _, _, _, rfl, rfl⟩
  · cases h

/-! ## Faults -/

/-- The mode and its cause stay, or a fault takes the station out of TRACKING (R109). -/
def Faulted (s t : State) : Prop := t.control = s.control ∨ s.control.mode = .tracking ∧ t.control.mode = .trackLost

namespace Faulted

theorem trans {s t u : State} (first : Faulted s t) (second : Faulted t u) : Faulted s u := by
  rcases first with same | ⟨tracking, lost⟩
  · rcases second with again | ⟨tracking, lost⟩
    · exact .inl (again.trans same)
    · exact .inr ⟨same ▸ tracking, lost⟩
  · rcases second with again | ⟨tracking, -⟩
    · exact .inr ⟨tracking, again ▸ lost⟩
    · exact absurd (lost.symm.trans tracking) nofun

theorem of_lineView {s t : State} (same : lineView t = lineView s) : Faulted s t := .inl (control_of_lineView same)

theorem takeFault (c : Cause) (s : State) : Faulted s (takeFault c s) := by
  by_cases tracking : s.control.mode = .tracking
  · rw [takeFault_eq c s tracking]
    exact .inr ⟨tracking, rfl⟩
  · exact .inl (congrArg State.control (if_neg tracking))

theorem takeDue (d : Due) (s : State) : Faulted s (takeDue d s) := by
  cases d with
  | edge e => exact of_lineView (takeWaitingEdge_lineView e s)
  | approachClose r => exact of_lineView (removeRecord_lineView ..)
  | confirmClose r => exact of_lineView (closeResolved_lineView _ r s)
  | exitClose r => exact of_lineView (closeResolved_lineView _ r s)
  | windowEnd k => exact .inl rfl
  | blocked e => exact takeFault _ s
  | reversal => exact takeFault _ s

theorem settleFuel (n : Nat) (s : State) : Faulted s (settleFuel n s) := by
  induction n generalizing s with
  | zero => exact .inl rfl
  | succ n ih =>
    unfold Machine.settleFuel
    split
    · exact .inl rfl
    · exact (takeDue _ s).trans (ih _)

/-- A count takes the faults of the count before it (notes/assumptions/4.md). -/
theorem count (forward : Bool) (pair : Bool × Bool) (s : State) :
    Faulted s (if s.resetHeld then moveEncoder pair s else takeCount forward (settle (moveEncoder pair s))) := by
  split
  · exact .inl rfl
  · exact settleFuel _ (moveEncoder pair s)

end Faulted

/-! ## The dispatch -/

/-- The events that bring a fault of the belt: its own commands, and a count by notes/assumptions/4.md (R69, R78). -/
def FaultEvent (c : Instr) : Prop := c = .reversal ∨ (∃ e, c = .blockedLimitReached e) ∨ c = .forwardCount ∨ c = .backwardCount

/-- What a command does to the mode and the address: nothing, a cold reset, the faults of the belt, or what its frame does. -/
inductive ModeMove (c : Instr) (s t : State) : Prop
  | kept (control : t.control = s.control) (address : t.relay.address = s.relay.address)
  | cold (reset : c = .powerOn ∨ c = .resetAsserted) (entered : t.control.mode = .transparent)
  | belt (event : FaultEvent c) (faulted : Faulted s t)
  | frame (f : Frame) (given : frameGiven c s = some f) (move : FrameMove f s t)

theorem frameGiven_of_requestOf {c : Instr} {addr num code : Byte} {args : List Byte} (s : State)
    (h : requestOf c = some (addr, num, code, args)) : frameGiven c s = some ⟨0x02, addr, num :: code :: args⟩ := by
  have spelled : frameGiven c s = (requestOf c).map (fun (a, n, code, args) => ⟨0x02, a, n :: code :: args⟩) := by
    cases c with
    | item | enumerate | downstreamRelay | symbolReceived => cases h
    | _ => rfl
  rw [spelled, h]
  rfl

namespace ModeMove

variable {c : Instr} {s t : State}

theorem of_untouched (same : Untouched s t) : ModeMove c s t := .kept same.control same.address

theorem of_lineView (same : lineView t = lineView s) : ModeMove c s t := .kept (control_of_lineView same) (address_of_lineView same)

theorem receiveFrame {f : Frame} (given : frameGiven c s = some f) : ModeMove c s (receiveFrame .u f s) := by
  rcases receiveFrame_cases .u f s with same | ⟨u, same, arrives⟩
  · exact of_untouched same
  · rw [arrives]
    exact .frame f given (.after same (.frameFromU f u))

theorem upstreamRelay (f : Frame) : ModeMove c s (Machine.receiveFrame .d f s) := by
  rcases receiveFrame_cases .d f s with same | ⟨u, same, arrives⟩
  · exact of_untouched same
  · rw [arrives]
    exact of_untouched (same.trans (.offerUp f u))

theorem receiveSymbol (p : Port) (sym : Symbol) : ModeMove (.symbolReceived p sym) s (receiveSymbol p sym s) := by
  rcases receiveSymbol_cases p sym s with same | ⟨held, f, u, rfl, assembled, good, same, arrives⟩
  · exact of_untouched same
  · rw [arrives]
    cases p with
    | d => exact of_untouched (same.trans (.offerUp f u))
    | u =>
      obtain ⟨k, a, n, rest, rfl, rfl⟩ := judgeFrame_inr good
      refine .frame _ ?_ (.after same (.frameFromU _ u))
      change s.links.u.framer = _ at assembled
      rw [frameGiven, assembled]

end ModeMove

theorem exec_modeMove {c : Instr} {s t : State} (run : exec c s = .next t) : ModeMove c s t := by
  cases hq : requestOf c with
  | some q =>
    obtain ⟨addr, num, code, args⟩ := q
    rw [exec_requestOf s hq] at run
    cases run
    exact .receiveFrame (frameGiven_of_requestOf s hq)
  | none =>
    cases c with
    | powerOn =>
      cases run
      refine .cold (.inl rfl) ?_
      split <;> rfl
    | resetAsserted => cases run; exact .cold (.inr rfl) rfl
    | resetReleased => cases run; split <;> exact .kept rfl rfl
    | forwardCount | backwardCount => cases run; exact .belt (by simp [FaultEvent]) (.count _ _ s)
    | reversal | blockedLimitReached e =>
      cases run
      refine .belt (by simp [FaultEvent]) ?_
      split
      · exact .takeFault _ s
      · exact .inl rfl
    | item addr payload | enumerate v payload | downstreamRelay f => cases run; exact .receiveFrame rfl
    | upstreamRelay f => cases run; exact .upstreamRelay f
    | symbolReceived p sym => cases run; exact .receiveSymbol p sym
    | eyePinChange e high =>
      cases run
      refine .of_lineView ?_
      split
      · rfl
      · split
        · rfl
        · exact takeWaitingEdge_lineView e s
    | entryLeadingEdge | entryTrailingEdge | confirmLeadingEdge k | confirmTrailingEdge k | exitLeadingEdge
    | exitTrailingEdge => cases run; exact .of_lineView (edgeCommand_lineView ..)
    | approachWindowClose =>
      cases run
      split
      · exact .of_lineView (removeRecord_lineView ..)
      · exact .kept rfl rfl
    | confirmWindowClose | exitWindowClose =>
      cases run
      split
      · exact .of_lineView (closeResolved_lineView ..)
      · exact .kept rfl rfl
    | firingWindowEnd k | testFireEnd k => cases run; split <;> exact .kept rfl rfl
    | encoderDoubleChange | laneFullChange k high => cases run; exact .kept rfl rfl
    | bankCheckCompletion =>
      cases run
      split
      · exact .of_untouched (.completeCheck _ s)
      · exact .kept rfl rfl
    | ackTimeout =>
      cases run
      split
      · exact .of_untouched (.takeExpiry s)
      · exact .kept rfl rfl
    | stall | noticeChoice =>
      cases run
      split
      · split <;> exact .kept rfl rfl
      · exact .kept rfl rfl
    | portUp p => cases run; split <;> exact .kept rfl rfl
    | portDown p cause =>
      cases run
      refine .of_untouched ?_
      split
      · exact .refl s
      · split <;> split
        · exact .portGoesDown p s
        · exact .setAlignRun p 0 s
        · exact .violationSymbol p s
        · exact .refl s
    | receiveError p e => cases run; exact .of_untouched (.receiveErrorEvent p e s)
    | uTransmitGrant =>
      cases run
      split
      · exact .of_untouched (.grantU s)
      · exact .kept rfl rfl
    | dTransmitGrant =>
      cases run
      split
      · exact .of_untouched (.grantD s)
      · exact .kept rfl rfl
    | sendingComplete p => cases run; exact .of_untouched (.completeSending p s)
    | readRoute bank addr num args => cases bank <;> cases hq
    | _ => cases hq

/-! ## Figure 6-1 -/

/-- The codes of the four mode requests (Table 11-4). -/
def ModeCode (code : Byte) : Prop := code = 0x20 ∨ code = 0x21 ∨ code = 0x22 ∨ code = 0x23

/-- A frame row that is no mode command gives an ITEM or a REQUEST of another code. -/
theorem frameGiven_of_not_modeCommand {c : Instr} {s : State} {f : Frame} (given : frameGiven c s = some f)
    (other : ¬ ModeCommand c) :
    f.kind = 0x01 ∨ f.kind = 0x02 ∧ ∃ num code args, f.payload = num :: code :: args ∧ ¬ ModeCode code := by
  unfold frameGiven at given
  split at given
  · exact absurd (by simp [ModeCommand]) other
  · cases given
    exact .inl rfl
  · exact absurd (by simp [ModeCommand]) other
  · exact absurd (by simp [ModeCommand]) other
  · obtain ⟨⟨addr, num, code, args⟩, spelled, rfl⟩ := Option.map_eq_some_iff.mp given
    refine .inr ⟨rfl, num, code, args, rfl, fun asks => other ?_⟩
    have asked : ∃ a n code args, requestOf c = some (a, n, code, args) ∧ ModeCode code := ⟨addr, num, code, args, spelled, asks⟩
    unfold ModeCommand
    tauto

/-- A REQUEST of any other code keeps the mode and the address. -/
theorem RequestMove.kept_of_not_modeCode {code : Byte} {s t : State} (move : RequestMove code s t) (other : ¬ ModeCode code) :
    t.control = s.control ∧ t.relay.address = s.relay.address := by
  cases move with
  | kept control address => exact ⟨control, address⟩
  | started asks => exact absurd (.inl asks) other
  | stopped asks => exact absurd (.inr (.inl asks)) other
  | recovered asks => exact absurd (.inr (.inr (.inl asks))) other
  | restarted asks => exact absurd (.inr (.inr (.inr asks))) other

/-- The arrows of Figure 6-1 that a command may take from a state, by the mode they lead into. -/
inductive Arrow (c : Instr) (s : State) : Mode → Prop
  | cold (reset : c = .powerOn ∨ c = .resetAsserted) : Arrow c s .transparent
  | faulted (tracking : s.control.mode = .tracking) (event : FaultEvent c) : Arrow c s .trackLost
  | enumerated (transparent : s.control.mode = .transparent) (enumerates : Enumerates c s) : Arrow c s .ready
  | stopped (tracking : s.control.mode = .tracking) (asks : Asks 0x21 c s) : Arrow c s .ready
  | recovered (lost : s.control.mode = .trackLost) (asks : Asks 0x22 c s) : Arrow c s .ready
  | restarted (addressed : s.control.mode ≠ .transparent) (asks : Asks 0x23 c s) : Arrow c s .ready
  | started (ready : s.control.mode = .ready) (consistent : Consistent s.config) (asks : Asks 0x20 c s) : Arrow c s .tracking

namespace ModeMove

variable {c : Instr} {s t : State}

theorem kept_of_not_modeCommand (move : ModeMove c s t) (other : ¬ ModeCommand c) :
    t.control = s.control ∧ t.relay.address = s.relay.address := by
  cases move with
  | kept control address => exact ⟨control, address⟩
  | cold reset => exact absurd (by rcases reset with rfl | rfl <;> simp [ModeCommand]) other
  | belt event => exact absurd (by rcases event with rfl | ⟨e, rfl⟩ | rfl | rfl <;> simp [ModeCommand]) other
  | frame f given move =>
    have harmless := frameGiven_of_not_modeCommand given other
    cases move with
    | kept control address => exact ⟨control, address⟩
    | enumerated kind =>
      rcases harmless with item | ⟨request, -⟩
      · exact absurd (item.symm.trans kind) (by decide)
      · exact absurd (request.symm.trans kind) (by decide)
    | requested kind _ code _ payload move =>
      obtain ⟨num, args, payload⟩ := payload
      rcases harmless with item | ⟨-, num', code', args', payload', harmless⟩
      · exact absurd (item.symm.trans kind) (by decide)
      · obtain ⟨rfl, rfl, rfl⟩ : num = num' ∧ code = code' ∧ args = args' := by simpa using payload.symm.trans payload'
        exact move.kept_of_not_modeCode harmless

/-- A command that changes the mode takes an arrow of Figure 6-1. -/
theorem entered (move : ModeMove c s t) : t.control.mode = s.control.mode ∨ Arrow c s t.control.mode := by
  cases move with
  | kept control => exact .inl (congrArg ModeControl.mode control)
  | cold reset into => exact .inr (into ▸ .cold reset)
  | belt event faulted =>
    rcases faulted with same | ⟨tracking, into⟩
    · exact .inl (congrArg ModeControl.mode same)
    · exact .inr (into ▸ .faulted tracking event)
  | frame f given move =>
    cases move with
    | kept control => exact .inl (congrArg ModeControl.mode control)
    | enumerated kind least most mode =>
      rcases mode with same | ⟨transparent, into⟩
      · exact .inl (congrArg ModeControl.mode same)
      · exact .inr (into ▸ .enumerated transparent ⟨f, given, kind, least, most⟩)
    | requested kind addressed code taken payload move =>
      have asks : Asks code c s := ⟨f, given, kind, taken, payload⟩
      cases move with
      | kept control => exact .inl (congrArg ModeControl.mode control)
      | started named ready consistent into => exact .inr (into ▸ .started ready consistent (named ▸ asks))
      | stopped named tracking into => exact .inr (into ▸ .stopped tracking (named ▸ asks))
      | recovered named lost into => exact .inr (into ▸ .recovered lost (named ▸ asks))
      | restarted named into => exact .inr (into ▸ .restarted addressed (named ▸ asks))

end ModeMove

/-- Settles O59: what a command does to the mode and the address is one of the moves, and each mode is entered by its own arrows. -/
theorem modeTransitions : Obligations.ModeTransitions := by
  intro c s t run
  have move := exec_modeMove run
  have entered {m : Mode} (h : t.control.mode = m) : s.control.mode = m ∨ Arrow c s m := by
    rw [← h, eq_comm]
    exact move.entered
  refine ⟨move.kept_of_not_modeCommand, fun h => ?_, fun h => ?_, fun h => ?_, fun h => ?_⟩
  · exact (entered h).imp_right fun | .cold reset => reset
  · exact (entered h).imp_right fun
      | .enumerated transparent enumerates => .inl ⟨transparent, enumerates⟩
      | .stopped tracking asks => .inr (.inl ⟨tracking, asks⟩)
      | .recovered lost asks => .inr (.inr (.inl ⟨lost, asks⟩))
      | .restarted addressed asks => .inr (.inr (.inr ⟨addressed, asks⟩))
  · exact (entered h).imp_right fun | .started ready consistent asks => ⟨ready, consistent, asks⟩
  · exact (entered h).imp_right fun | .faulted tracking event => ⟨tracking, event⟩

end Sys2Proof.Safety
end

section
/-! PROOFS. The notice sources and the notice channel, each on its own: what an occurrence, a choice, an expiry, a grant and a
completion make of them (Table 7-3, R120 to R128). -/

namespace Sys2Proof.Safety

open Sys2Proof.Machine

/-! ## The two halves of a sound notice channel -/

/-- The sources with their two port sets (R120, R121). -/
structure SourcesSound (v : Vector SourceState 10) (link rx : PortSet) : Prop where
  unmasked : v[0].masked = false
  counts : ∀ i : Fin 10, v[i].pending = true ↔ v[i].count ≠ 0
  linkPorts : v[7].pending = true ↔ link ≠ ⟨false, false⟩
  rxPorts : v[8].pending = true ↔ rx ≠ ⟨false, false⟩

/-- The channel with what it reads of the configuration, of transmitter U and of the RESET pin (R123 to R127). -/
structure NoticeSound (ch : Channel) (timeout : Byte) (tx : Transmitter) (resetHeld : Bool) : Prop where
  held : ch.state = .idle ↔ ch.outstanding = none
  idle : ch.state = .idle → ch.retry = 0 ∧ ch.timer = none ∧ ch.slot = none ∧ ch.sending = false
  quiet : ch.state = .quiet → ch.timer = none ∧ ch.slot = none ∧ ch.sending = false
  slot : ∀ f, ch.slot = some f → ch.timer = none ∧ ch.sending = false ∧ ch.outstanding.map Notice.frame = some f
  sending : ch.sending = true → ch.timer = none ∧ ∃ symbols, tx = .sending .notice symbols
  timer : ∀ t, ch.timer = some t → t.elapsed < t.loaded ∧ t.loaded ≤ 255
  captured : ∀ n, ch.outstanding = some n → n.count ≠ 0
  timeout : timeout ≠ 0
  silent : resetHeld = true → tx = .silent

theorem channelSound_iff (s : State) :
    ChannelSound s ↔ SourcesSound s.report.sources s.report.linkPorts s.report.rxPorts
      ∧ NoticeSound s.report.channel s.config.noticeTimeout s.relay.txU s.resetHeld where
  mp h := ⟨⟨h.unmasked, h.counts, h.linkPorts, h.rxPorts⟩,
    ⟨h.held, h.idle, h.quiet, h.slot, h.sending, h.timer, h.captured, h.timeout, h.silent⟩⟩
  mpr := fun ⟨v, n⟩ => ⟨v.unmasked, v.counts, v.linkPorts, v.rxPorts, n.held, n.idle, n.quiet, n.slot, n.sending, n.timer,
    n.captured, n.timeout, n.silent⟩

/-! ## Sources -/

theorem countUp_ne_zero (n : Byte) : countUp n ≠ 0 := by
  revert n
  decide

theorem joinPort_ne_empty (p : Port) (ports : PortSet) : joinPort p ports ≠ ⟨false, false⟩ := by cases p <;> simp [joinPort]

namespace SourcesSound

variable {v : Vector SourceState 10} {link rx link' rx' : PortSet}

/-- One source changed with its mask kept, its flag and count agreeing, and the port set that it names agreeing with its flag. -/
theorem set (h : SourcesSound v link rx) (i : Fin 10) {x : SourceState} (mask : x.masked = v[i].masked)
    (agrees : x.pending = true ↔ x.count ≠ 0)
    (linkPorts : i = 7 ∧ (x.pending = true ↔ link' ≠ ⟨false, false⟩) ∨ i ≠ 7 ∧ link' = link)
    (rxPorts : i = 8 ∧ (x.pending = true ↔ rx' ≠ ⟨false, false⟩) ∨ i ≠ 8 ∧ rx' = rx) :
    SourcesSound (v.set i x) link' rx' := by
  have place (j : Fin 10) : (v.set i x)[j] = if i = j then x else v[j] := by
    simp only [Fin.getElem_fin, Vector.getElem_set, Fin.ext_iff]
  have names {k : Fin 10} {old new : PortSet} (sound : v[k].pending = true ↔ old ≠ ⟨false, false⟩)
      (now : i = k ∧ (x.pending = true ↔ new ≠ ⟨false, false⟩) ∨ i ≠ k ∧ new = old) :
      (v.set i x)[k].pending = true ↔ new ≠ ⟨false, false⟩ := by
    rw [place k]
    rcases now with ⟨rfl, agrees⟩ | ⟨other, rfl⟩
    · rwa [if_pos rfl]
    · rwa [if_neg other]
  refine ⟨?_, fun j => ?_, names (k := 7) h.linkPorts linkPorts, names (k := 8) h.rxPorts rxPorts⟩
  · refine (congrArg SourceState.masked (place 0)).trans ?_
    split
    · subst i
      exact mask.trans h.unmasked
    · exact h.unmasked
  · rw [place j]
    split
    · exact agrees
    · exact h.counts j

/-- Nothing pending (R114, R123). -/
theorem cleared (h : SourcesSound v link rx) :
    SourcesSound (v.map fun x => { x with pending := false, count := 0 }) ⟨false, false⟩ ⟨false, false⟩ where
  unmasked := by simpa using h.unmasked
  counts i := by simp
  linkPorts := by simp
  rxPorts := by simp

/-- The masks of the maskable sources set (R122). -/
theorem masks (h : SourcesSound v link rx) (w : BitVec 16) : SourcesSound (setMasks w v) link rx where
  unmasked := by simp [setMasks]
  counts i := by simpa [setMasks] using h.counts i
  linkPorts := by simpa [setMasks] using h.linkPorts
  rxPorts := by simpa [setMasks] using h.rxPorts

end SourcesSound

/-! ## The channel -/

namespace NoticeSound

variable {ch : Channel} {timeout : Byte} {tx : Transmitter} {resetHeld : Bool}

/-- An IDLE channel holds nothing (Table 7-3). -/
theorem emptied (h : NoticeSound ch timeout tx resetHeld) (seq : Byte) :
    NoticeSound ⟨.idle, seq, none, 0, none, none, false⟩ timeout tx resetHeld :=
  ⟨by simp, fun _ => ⟨rfl, rfl, rfl, rfl⟩, nofun, nofun, nofun, nofun, nofun, h.timeout, h.silent⟩

/-- A notice just built waits in the slot (R123, R124). -/
theorem built (h : NoticeSound ch timeout tx resetHeld) (seq : Byte) {n : Notice} (counted : n.count ≠ 0) :
    NoticeSound ⟨.outstanding, seq, some n, 0, none, some n.frame, false⟩ timeout tx resetHeld where
  held := by simp
  idle := nofun
  quiet := nofun
  slot := by
    rintro _ ⟨⟩
    exact ⟨rfl, rfl, rfl⟩
  sending := nofun
  timer := nofun
  captured := by
    rintro _ ⟨⟩
    exact counted
  timeout := h.timeout
  silent := h.silent

section

variable (h : NoticeSound ch timeout tx resetHeld)
include h

/-- The ack timer runs in OUTSTANDING only, after the notice has been sent (R125). -/
theorem of_timer {t : AckTimer} (runs : ch.timer = some t) : ch.state = .outstanding ∧ ch.slot = none ∧ ch.sending = false := by
  have some_ne : ch.timer ≠ none := by simp [runs]
  refine ⟨?_, ?_, ?_⟩
  · cases hs : ch.state with
    | idle => exact absurd (h.idle hs).2.1 some_ne
    | outstanding => rfl
    | quiet => exact absurd (h.quiet hs).1 some_ne
  · exact Option.eq_none_iff_forall_ne_some.mpr fun f waits => some_ne (h.slot f waits).1
  · exact Bool.eq_false_of_not_eq_true fun sends => some_ne (h.sending sends).1

/-- A notice is being sent in OUTSTANDING only, its slot empty (R125). -/
theorem of_sending (sends : ch.sending = true) : ch.state = .outstanding ∧ ch.slot = none := by
  have ne_false : ch.sending ≠ false := by simp [sends]
  refine ⟨?_, ?_⟩
  · cases hs : ch.state with
    | idle => exact absurd (h.idle hs).2.2.2 ne_false
    | outstanding => rfl
    | quiet => exact absurd (h.quiet hs).2.2 ne_false
  · exact Option.eq_none_iff_forall_ne_some.mpr fun f waits => ne_false (h.slot f waits).2.1

/-- Transmitter U sending IDLE sends no notice, and RESET is not held. -/
theorem of_free (free : tx = .idle) : ch.sending = false ∧ resetHeld = false := by
  refine ⟨Bool.eq_false_of_not_eq_true fun sends => ?_, Bool.eq_false_of_not_eq_true fun held => ?_⟩
  · obtain ⟨-, symbols, busy⟩ := h.sending sends
    exact absurd (free.symm.trans busy) nofun
  · exact absurd (free.symm.trans (h.silent held)) nofun

/-- A notice waits in OUTSTANDING only. -/
theorem of_slot {f : Frame} (waits : ch.slot = some f) : ch.state = .outstanding := by
  have some_ne : ch.slot ≠ none := by simp [waits]
  cases hs : ch.state with
  | idle => exact absurd (h.idle hs).2.2.1 some_ne
  | outstanding => rfl
  | quiet => exact absurd (h.quiet hs).2.1 some_ne

/-- An OUTSTANDING channel that keeps its notice. -/
theorem keeps {ch' : Channel} {tx' : Transmitter} (outstanding : ch.state = .outstanding)
    (same : ch'.state = ch.state ∧ ch'.outstanding = ch.outstanding)
    (slot : ∀ f, ch'.slot = some f → ch'.timer = none ∧ ch'.sending = false ∧ ch.outstanding.map Notice.frame = some f)
    (sending : ch'.sending = true → ch'.timer = none ∧ ∃ symbols, tx' = .sending .notice symbols)
    (timer : ∀ t, ch'.timer = some t → t.elapsed < t.loaded ∧ t.loaded ≤ 255) (silent : resetHeld = true → tx' = .silent) :
    NoticeSound ch' timeout tx' resetHeld := by
  obtain ⟨state, notice⟩ := same
  have still : ch'.state = .outstanding := state.trans outstanding
  exact
    { held := by rw [state, notice]; exact h.held
      idle := fun idle => absurd (still.symm.trans idle) nofun
      quiet := fun quiet => absurd (still.symm.trans quiet) nofun
      slot := notice ▸ slot
      sending := sending
      timer := timer
      captured := notice ▸ h.captured
      timeout := h.timeout
      silent := silent }

/-- The notice placed again (R126). -/
theorem retried {t : AckTimer} (runs : ch.timer = some t) :
    NoticeSound { ch with retry := ch.retry + 1, timer := none, slot := ch.outstanding.map Notice.frame } timeout tx resetHeld := by
  obtain ⟨outstanding, -, sent⟩ := h.of_timer runs
  exact h.keeps outstanding ⟨rfl, rfl⟩ (fun _ waits => ⟨rfl, sent, waits⟩) (fun sends => absurd (sent.symm.trans sends) nofun)
    nofun h.silent

/-- The retries spent (R126). -/
theorem quieted {t : AckTimer} (runs : ch.timer = some t) :
    NoticeSound { ch with state := .quiet, timer := none } timeout tx resetHeld := by
  obtain ⟨outstanding, empty, sent⟩ := h.of_timer runs
  have holds : ch.outstanding ≠ none := fun none => absurd (outstanding.symm.trans (h.held.mpr none)) nofun
  exact
    { h with
      held := iff_of_false nofun holds
      idle := nofun
      quiet := fun _ => ⟨rfl, empty, sent⟩
      slot := fun f waits => absurd (empty.symm.trans waits) nofun
      sending := fun sends => absurd (sent.symm.trans sends) nofun
      timer := nofun }

/-- A tick at the ack timer (R125, R126). -/
theorem ticked (c : StationConfig) : NoticeSound (ackTicked c ch) timeout tx resetHeld := by
  cases runs : ch.timer with
  | none =>
    rw [ackTicked_idle runs]
    exact h
  | some t =>
    by_cases early : t.elapsed + 1 < t.loaded
    · obtain ⟨outstanding, empty, sent⟩ := h.of_timer runs
      rw [ackTicked_runs runs early]
      refine h.keeps outstanding ⟨rfl, rfl⟩ (fun f waits => absurd (empty.symm.trans waits) nofun)
        (fun sends => absurd (sent.symm.trans sends) nofun) ?_ h.silent
      rintro _ ⟨⟩
      exact ⟨early, (h.timer t runs).2⟩
    · have expired := Nat.not_lt.mp early
      by_cases left : ch.retry.toNat < c.noticeRetries.toNat
      · rw [ackTicked_retries runs expired left]
        exact h.retried runs
      · rw [ackTicked_quiets runs expired (Nat.not_lt.mp left)]
        exact h.quieted runs

/-- The waiting notice granted to transmitter U, which is not under RESET (R125, R159). -/
theorem granted {f : Frame} (waits : ch.slot = some f) (free : tx = .idle) (symbols : List Symbol) :
    NoticeSound { ch with slot := none, sending := true } timeout (.sending .notice symbols) resetHeld := by
  obtain ⟨stopped, -, -⟩ := h.slot f waits
  exact h.keeps (h.of_slot waits) ⟨rfl, rfl⟩ nofun (fun _ => ⟨stopped, symbols, rfl⟩) h.timer
    fun held => absurd (free.symm.trans (h.silent held)) nofun

/-- The outstanding notice has been sent: its ack timer runs (R125). -/
theorem completed (sends : ch.sending = true) :
    NoticeSound { ch with timer := some ⟨timeout.toNat, 0⟩, sending := false } timeout .idle resetHeld := by
  obtain ⟨outstanding, empty⟩ := h.of_sending sends
  obtain ⟨-, _, sending⟩ := h.sending sends
  refine h.keeps outstanding ⟨rfl, rfl⟩ (fun f waits => absurd (empty.symm.trans waits) nofun) nofun ?_
    fun held => absurd (sending.symm.trans (h.silent held)) nofun
  rintro _ ⟨⟩
  exact ⟨Nat.pos_of_ne_zero fun zero => h.timeout (BitVec.eq_of_toNat_eq zero), Nat.le_of_lt_succ timeout.isLt⟩

/-- The transmitter turns to something else while it sends no notice of this channel. -/
theorem retransmits {tx' : Transmitter} {held' : Bool} (quiet : ch.sending = false) (silent : held' = true → tx' = .silent) :
    NoticeSound ch timeout tx' held' :=
  { h with sending := fun sends => absurd (quiet.symm.trans sends) nofun, silent := silent }

end

end NoticeSound

end Sys2Proof.Safety
end

section
/-! PROOFS. Every step keeps the notice channel and the notice sources sound (Table 7-3, R120, R121, R123 to R127): most events raise
sources at most; the channel's own events, the transmitter's, the masks, the configuration and the resets each by what they make of it. -/

namespace Sys2Proof.Safety

open Sys2Proof.Machine

/-- Only a pending source is chosen (R123). -/
theorem pending_of_choosable {s : State} {src : Source} (chosen : choosable s = some src) :
    (s.report.sources[sourceIndex src]).pending = true := by
  have test := List.find?_some chosen
  exact (Bool.and_eq_true_iff.mp test).1

/-- What the soundness of the notice channel reads of the state: the sources with their port sets, and all the rest. -/
def noticeView (s : State) : (Vector SourceState 10 × PortSet × PortSet) × Channel × Byte × Transmitter × Bool :=
  ((s.report.sources, s.report.linkPorts, s.report.rxPorts), s.report.channel, s.config.noticeTimeout, s.relay.txU, s.resetHeld)

/-- The group of the times keeps the notice timeout out of 0, and no other group writes it (R174, Table 10-3). -/
theorem noticeTimeout_of_writeGroup {g : Byte} {vals : List Byte} {c d : StationConfig} (fits : groupLength g = some vals.length)
    (written : writeGroup g vals c = .inr d) (nonzero : c.noticeTimeout ≠ 0) : d.noticeTimeout ≠ 0 := by
  have place (c : StationConfig) : (groupBytes c 7).getD 2 0 = c.noticeTimeout := rfl
  rw [groupLength_eq] at fits
  split at fits
  · have answer := writeGroup_answer c ‹_› (Option.some.inj fits).symm
    rw [written] at answer
    obtain ⟨inRange, kept, others⟩ := answer
    by_cases times : g.toNat = 7
    · rw [times] at inRange kept
      rw [← place, kept]
      exact inRange 1
    · rw [← place, others 7 (Ne.symm times), place]
      exact nonzero
  · cases fits

namespace ChannelSound

section

variable {s t : State} (h : ChannelSound s)
include h

theorem sources : SourcesSound s.report.sources s.report.linkPorts s.report.rxPorts := ((channelSound_iff s).mp h).1

theorem notice : NoticeSound s.report.channel s.config.noticeTimeout s.relay.txU s.resetHeld := ((channelSound_iff s).mp h).2

theorem congr (same : noticeView t = noticeView s) : ChannelSound t := by
  simp only [noticeView, Prod.mk.injEq] at same
  obtain ⟨⟨sources, link, rx⟩, channel, timeout, tx, resetHeld⟩ := same
  rw [channelSound_iff, sources, link, rx, channel, timeout, tx, resetHeld]
  exact ⟨h.sources, h.notice⟩

/-! ## Occurrences -/

theorem bump (c : Counter) : ChannelSound (bump c s) := h.congr rfl

theorem setTracking (q : List ItemRecord) : ChannelSound (setTracking q s) := h.congr rfl

theorem pushHandoff (f : Frame) : ChannelSound (pushHandoff f s) := h.congr rfl

/-- A source that names no port (R120). -/
theorem occur (src : Source) (portless : sourceIndex src ≠ 7 ∧ sourceIndex src ≠ 8) : ChannelSound (occur src s) := by
  obtain ⟨link, rx⟩ := portless
  exact (channelSound_iff _).mpr
    ⟨h.sources.set _ rfl (iff_of_true rfl (countUp_ne_zero _)) (.inr ⟨link, rfl⟩) (.inr ⟨rx, rfl⟩), h.notice⟩

theorem occurLinkChange (p : Port) : ChannelSound (occurLinkChange p s) :=
  (channelSound_iff _).mpr
    ⟨h.sources.set 7 rfl (iff_of_true rfl (countUp_ne_zero _)) (.inl ⟨rfl, iff_of_true rfl (joinPort_ne_empty p _)⟩)
      (.inr ⟨by decide, rfl⟩), h.notice⟩

theorem rxError (p : Port) (e : RxKind) : ChannelSound (takeRxError p e s) :=
  (channelSound_iff _).mpr
    ⟨h.sources.set 8 rfl (iff_of_true rfl (countUp_ne_zero _)) (.inr ⟨by decide, rfl⟩)
      (.inl ⟨rfl, iff_of_true rfl (joinPort_ne_empty p _)⟩), h.notice⟩

theorem offerTally (t : Tally) : ChannelSound (offerTally t s) := by
  dsimp only [Machine.offerTally]
  split
  · exact h.congr rfl
  · refine occur ?_ .tallyOverflow (by decide)
    exact h.congr rfl

theorem offerDown (f : Frame) : ChannelSound (offerDown f s) := by
  unfold Machine.offerDown
  split <;> exact h.congr rfl

theorem offerUp (f : Frame) : ChannelSound (offerUp f s) := by
  unfold Machine.offerUp
  split
  · exact h.congr rfl
  · exact (h.bump _).occur .relayOverflow (by decide)

/-! ## Edges and closes -/

theorem removeRecord (p : ItemRecord → Bool) (r : ItemRecord) (o : OutcomeKind) (x : Pos) : ChannelSound (removeRecord p r o x s) := by
  dsimp only [Machine.removeRecord]
  split
  · exact ((h.setTracking _).bump _).offerTally _
  · exact (h.setTracking _).bump _

theorem handOff (p : ItemRecord → Bool) (r : ItemRecord) (o : OutcomeKind) (x : Pos) : ChannelSound (handOff p r o x s) := by
  unfold Machine.handOff
  split
  · exact (h.pushHandoff _).removeRecord ..
  · exact (h.occur .handoffOverflow (by decide)).removeRecord ..

theorem exitLeading (x : Pos) : ChannelSound (exitLeading x s) := by
  have missed := h.occur .divertFault (by decide)
  dsimp only [Machine.exitLeading, exitMissed, exitPassed]
  split
  · exact h.congr rfl
  · split <;> split
    · exact missed.removeRecord ..
    · exact missed.handOff ..
    · exact h.removeRecord ..
    · exact h.handOff ..

theorem confirmLeading (k : OutletId) (x : Pos) : ChannelSound (confirmLeading k x s) := by
  unfold Machine.confirmLeading
  split
  · split
    · exact (h.removeRecord ..).congr rfl
    · exact h.congr rfl
  · exact h

theorem entryLeading (x : Pos) : ChannelSound (entryLeading x s) :=
  matchEntry_keeps (P := ChannelSound) (Q := ChannelSound) (fun r y _ hs => hs.removeRecord _ r _ y)
    (fun s hs => by
      unfold createStray
      split
      · exact hs.congr rfl
      · exact (hs.bump _).occur .queueFull (by decide))
    (fun _ _ _ hs => hs.congr rfl) _ h

theorem resolve (x : Pos) : ChannelSound (resolve x s) := by
  have bound (k : OutletId) (p : Pos) (len : BitVec 16) (r : ItemRecord) : ChannelSound (bindOutlet k x p len r s) := by
    dsimp only [bindOutlet]
    split
    · exact h.congr rfl
    · split
      · exact (h.setTracking _).occur .scheduleFull (by decide)
      · exact h.congr rfl
  unfold Machine.resolve
  split
  · exact h
  · split
    · dsimp only
      split
      · exact h.congr rfl
      · exact bound ..
    · exact h

theorem takeEdge (e : EyeId) (b : Bool) (x : Pos) : ChannelSound (takeEdge e b x s) := by
  have turned : ChannelSound { s with sensor := acceptEdge e b x s.sensor } := h.congr rfl
  dsimp only [Machine.takeEdge, trackEdge]
  split
  · split
    · exact turned.entryLeading _
    · exact turned.resolve _
    · exact turned.exitLeading _
    · exact turned
    · exact turned.confirmLeading ..
    · exact turned
  · exact turned

theorem edgeCommand (e : EyeId) (b : Bool) : ChannelSound (edgeCommand e b s) := by
  unfold Machine.edgeCommand
  split
  · exact h.takeEdge ..
  · exact h

theorem takeWaitingEdge (e : EyeId) : ChannelSound (takeWaitingEdge e s) := by
  unfold Machine.takeWaitingEdge
  split
  · exact h.takeEdge ..
  · split
    · exact h.takeEdge ..
    · exact h

theorem closeResolved (p : ItemRecord → Bool) (r : ItemRecord) : ChannelSound (closeResolved p r s) := by
  dsimp only [Machine.closeResolved]
  split
  · exact (h.occur .divertFault (by decide)).removeRecord ..
  · exact h.removeRecord ..

theorem takeItem (payload : List Byte) : ChannelSound (takeItem payload s) := by
  have tracked (i : ItemFields) : ChannelSound (trackItem i s) := by
    unfold trackItem
    split
    · exact h.congr rfl
    · split
      · exact h.congr rfl
      · exact ((h.offerTally _).occur .queueFull (by decide)).congr rfl
  have relayed (i : ItemFields) : ChannelSound (outOfService i s) := by
    unfold outOfService
    split
    · exact (h.offerTally _).congr rfl
    · split
      · exact h.congr rfl
      · exact ((h.offerTally _).occur .handoffOverflow (by decide)).congr rfl
  unfold Machine.takeItem
  split
  · exact h
  · split
    · exact tracked _
    · exact relayed _

/-! ## Modes entered, counts and ticks -/

theorem abandonAll (x : Pos) (q : List ItemRecord) : ChannelSound (q.foldl (abandon x) s) := by
  induction q generalizing s with
  | nil => exact h
  | cons r q ih => exact ih ((h.bump _).offerTally _)

theorem stopEffect : ChannelSound (stopEffect s) := (h.abandonAll s.position.pos s.tracking).congr rfl

theorem takeFault (c : Cause) : ChannelSound (takeFault c s) := by
  have flushed := abandonAll (s := { s with control := { s.control with cause := c } }) (h.congr rfl) s.position.pos s.tracking
  dsimp only [Machine.takeFault]
  split
  · refine occur ?_ .trackLost (by decide)
    exact flushed.congr rfl
  · exact h

theorem takeDue (d : Due) : ChannelSound (takeDue d s) := by
  cases d with
  | edge e => exact h.takeWaitingEdge e
  | approachClose r => exact h.removeRecord (approachClosesAt s.config s.position.pos) r .lost _
  | confirmClose r => exact h.closeResolved ..
  | exitClose r => exact h.closeResolved ..
  | windowEnd k => exact h.congr rfl
  | blocked e => exact h.takeFault _
  | reversal => exact h.takeFault _

theorem settleFuel (n : Nat) : ChannelSound (settleFuel n s) := by
  induction n generalizing s with
  | zero => exact h
  | succ n ih =>
    unfold Machine.settleFuel
    split
    · exact h
    · exact ih (h.takeDue _)

theorem reportStall (n : Nat) : ChannelSound (reportStall n s) := by
  refine occur ?_ .stall (by decide)
  exact h.congr rfl

theorem tick : ChannelSound (tick s) := by
  have watched : ChannelSound (tickWatch s) := by
    unfold tickWatch
    split
    · exact h
    · split
      · exact h.reportStall _
      · exact h.congr rfl
  have acked : ChannelSound (tickAck (tickWatch s)) := by
    rw [tickAck_eq]
    exact (channelSound_iff _).mpr ⟨watched.sources, watched.notice.ticked _⟩
  exact acked.congr rfl

/-! ## The events of the channel and of transmitter U -/

/-- The expiry of a running ack timer (R126). -/
theorem takeExpiry {a : AckTimer} (runs : s.report.channel.timer = some a) : ChannelSound (takeExpiry s) := by
  dsimp only [Machine.takeExpiry]
  split
  · exact (channelSound_iff _).mpr ⟨h.sources, h.notice.retried runs⟩
  · exact (channelSound_iff _).mpr ⟨h.sources, h.notice.quieted runs⟩

/-- A pending source has occurred at least once, so that its notice carries a count (R123). -/
theorem takeChoice {src : Source} (pending : (s.report.sources[sourceIndex src]).pending = true) : ChannelSound (takeChoice src s) := by
  have silent {ports : PortSet} (emptied : ports = ⟨false, false⟩) : false = true ↔ ports ≠ ⟨false, false⟩ :=
    iff_of_false nofun (not_not_intro emptied)
  have link : sourceIndex src = 7 ∧ (false = true ↔ (clearSource src s.report).linkPorts ≠ ⟨false, false⟩)
      ∨ sourceIndex src ≠ 7 ∧ (clearSource src s.report).linkPorts = s.report.linkPorts := by
    cases src with
    | linkChange => exact .inl ⟨rfl, silent rfl⟩
    | _ => exact .inr ⟨by decide, rfl⟩
  have rx : sourceIndex src = 8 ∧ (false = true ↔ (clearSource src s.report).rxPorts ≠ ⟨false, false⟩)
      ∨ sourceIndex src ≠ 8 ∧ (clearSource src s.report).rxPorts = s.report.rxPorts := by
    cases src with
    | rxError => exact .inl ⟨rfl, silent rfl⟩
    | _ => exact .inr ⟨by decide, rfl⟩
  exact (channelSound_iff _).mpr
    ⟨h.sources.set (sourceIndex src) rfl (iff_of_false nofun (not_not_intro rfl)) link rx,
      h.notice.built _ ((h.counts _).mp pending)⟩

theorem grantU (free : s.relay.txU = .idle) : ChannelSound (grantU s) := by
  obtain ⟨quiet, released⟩ := h.notice.of_free free
  have taken {source : TxSource} {symbols : List Symbol} :
      NoticeSound s.report.channel s.config.noticeTimeout (.sending source symbols) s.resetHeld :=
    h.notice.retransmits quiet fun held => absurd (released.symm.trans held) nofun
  have turn : ChannelSound (grantUTurn s) := by
    unfold grantUTurn
    split
    · exact h
    · exact (channelSound_iff _).mpr ⟨h.sources, taken⟩
    · exact (channelSound_iff _).mpr ⟨h.sources, taken⟩
    · split <;> exact (channelSound_iff _).mpr ⟨h.sources, taken⟩
  unfold Machine.grantU
  split
  · exact (channelSound_iff _).mpr ⟨h.sources, taken⟩
  · split
    · exact (channelSound_iff _).mpr ⟨h.sources, h.notice.granted ‹_› free _⟩
    · exact turn

theorem completeSending (p : Port) : ChannelSound (completeSending p s) := by
  have idles {source : TxSource} {symbols : List Symbol} (busy : s.relay.txU = .sending source symbols)
      (quiet : s.report.channel.sending = false) : ChannelSound { s with relay := { s.relay with txU := .idle } } :=
    (channelSound_iff _).mpr
      ⟨h.sources, h.notice.retransmits quiet fun held => absurd (busy.symm.trans (h.silent held)) nofun⟩
  cases p with
  | u =>
    dsimp only [Machine.completeSending]
    split
    · unfold startAckTimer
      split
      · exact (channelSound_iff _).mpr ⟨h.sources, h.notice.completed ‹_›⟩
      · exact idles ‹_› (Bool.eq_false_of_not_eq_true ‹_›)
    · rename_i other busy
      refine idles busy (Bool.eq_false_of_not_eq_true fun sends => ?_)
      obtain ⟨-, symbols, sending⟩ := h.sending sends
      exact other (Transmitter.sending.inj (busy.symm.trans sending)).1
    · exact h
  | d =>
    dsimp only [Machine.completeSending]
    split <;> exact h.congr rfl

/-! ## The ports -/

theorem setLink (p : Port) (l : LinkPort) : ChannelSound (setLink p l s) := h.congr rfl

theorem portGoesUp (p : Port) : ChannelSound (portGoesUp p s) := (h.setLink p _).occurLinkChange p

theorem truncated (p : Port) : ChannelSound (if assembling (s.links.get p) then takeRxError p .truncated s else s) := by
  split
  · exact h.rxError ..
  · exact h

theorem portGoesDown (p : Port) : ChannelSound (portGoesDown p s) := by
  have down (l : LinkPort) := ((h.truncated p).setLink p l).occurLinkChange p
  cases p with
  | u => exact down _
  | d => exact (down _).congr rfl

theorem violationSymbol (p : Port) : ChannelSound (violationSymbol p s) := by
  have erred := h.rxError p (if assembling (s.links.get p) then .truncated else .violation)
  dsimp only [Machine.violationSymbol]
  split
  · refine portGoesDown ?_ p
    exact erred.congr rfl
  · exact erred.congr rfl

theorem alignSymbol (p : Port) (sym : Symbol) : ChannelSound (alignSymbol p sym s) := by
  have counted : ChannelSound (if Config.alignSymbols ≤ (s.links.get p).alignRun + 1 then Machine.portGoesUp p s
      else setAlignRun p ((s.links.get p).alignRun + 1) s) := by
    split
    · exact h.portGoesUp p
    · exact h.congr rfl
  cases sym with
  | violation => exact h.congr rfl
  | _ => exact counted

theorem receiveErrorEvent (p : Port) (e : RxEvent) : ChannelSound (receiveErrorEvent p e s) := by
  have framed (kind : RxKind) (f : Framer) (n : Nat) : ChannelSound (takeRxError p kind (setFramer p f (setViolationRun p n s))) := by
    refine rxError ?_ p kind
    exact h.congr rfl
  unfold Machine.receiveErrorEvent
  split
  · exact h
  · cases e with
    | crc | misdirected | oversize => exact framed ..
    | truncated cause => cases cause <;> exact framed ..
    | violation cause =>
      cases cause with
      | violation =>
        dsimp only
        split
        · exact h
        · exact h.violationSymbol p
      | data =>
        dsimp only
        split
        · exact framed ..
        · exact h
      | eof =>
        dsimp only
        split
        · refine rxError ?_ p .violation
          exact h.congr rfl
        · exact h

/-! ## Requests -/

theorem readObjectRule (num : Byte) (args : List Byte) : ChannelSound (readObjectRule num args s) := by
  refine h.congr ?_
  unfold Machine.readObjectRule
  split
  · split
    · dsimp only
      split <;> rfl
    · rfl
  · rfl

theorem writeConfigRule (num : Byte) (args : List Byte) : ChannelSound (writeConfigRule num args s) := by
  dsimp only [Machine.writeConfigRule]
  split
  · exact h.congr rfl
  · split
    · exact h.congr rfl
    · split
      · exact h.congr rfl
      · rename_i fits
        split
        · exact h.congr rfl
        · exact (channelSound_iff _).mpr
            ⟨h.sources, { h.notice with timeout := noticeTimeout_of_writeGroup (not_not.mp fits) ‹_› h.timeout }⟩

theorem readCountersRule (num : Byte) (args : List Byte) : ChannelSound (readCountersRule num args s) := by
  refine h.congr ?_
  dsimp only [Machine.readCountersRule]
  split
  · split
    · split <;> rfl
    · rfl
  · rfl

theorem openPlanRule (num : Byte) (args : List Byte) : ChannelSound (openPlanRule num args s) := by
  refine h.congr ?_
  dsimp only [Machine.openPlanRule]
  split
  · split
    · rfl
    · split
      · rfl
      · split
        · rfl
        · split <;> rfl
  · rfl

theorem writeSegmentRule (num : Byte) (args : List Byte) : ChannelSound (writeSegmentRule num args s) := by
  refine h.congr ?_
  dsimp only [Machine.writeSegmentRule]
  split
  · split
    · rfl
    · split
      · split
        · rfl
        · split <;> rfl
      · rfl
  · rfl

theorem commitPlanRule (num : Byte) (args : List Byte) : ChannelSound (commitPlanRule num args s) := by
  refine h.congr ?_
  dsimp only [Machine.commitPlanRule]
  split
  · split
    · rfl
    · split <;> rfl
  · rfl

theorem dropPlanRule (num : Byte) (args : List Byte) : ChannelSound (dropPlanRule num args s) := by
  refine h.congr ?_
  dsimp only [Machine.dropPlanRule]
  split
  · split
    · rfl
    · split <;> rfl
  · rfl

theorem startTrackingRule (num : Byte) : ChannelSound (startTrackingRule num s) := by
  unfold Machine.startTrackingRule
  split <;> exact h.congr rfl

theorem stopTrackingRule (num : Byte) : ChannelSound (stopTrackingRule num s) := by
  unfold Machine.stopTrackingRule
  split
  · exact h.stopEffect.congr rfl
  · exact h.congr rfl

theorem recoverRule (num : Byte) : ChannelSound (recoverRule num s) := by
  unfold Machine.recoverRule
  split <;> exact h.congr rfl

/-- A warm reset keeps the masks and what is being sent, and empties the rest (R114, R130). -/
theorem restartEffect : ChannelSound (restartEffect s) := (channelSound_iff _).mpr ⟨h.sources.cleared, h.notice.emptied 0⟩

theorem ackNoticeRule (num : Byte) (args : List Byte) : ChannelSound (ackNoticeRule num args s) := by
  dsimp only [Machine.ackNoticeRule]
  split
  · split
    · split
      · exact (channelSound_iff _).mpr ⟨h.sources, h.notice.emptied _⟩
      · exact h.congr rfl
    · exact h.congr rfl
  · exact h.congr rfl

theorem setNoticeMaskRule (num : Byte) (args : List Byte) : ChannelSound (setNoticeMaskRule num args s) := by
  dsimp only [Machine.setNoticeMaskRule]
  split
  · exact (channelSound_iff _).mpr ⟨h.sources.masks _, h.notice⟩
  · exact h.congr rfl

theorem fireTestRule (num : Byte) (args : List Byte) : ChannelSound (fireTestRule num args s) := by
  refine h.congr ?_
  dsimp only [Machine.fireTestRule]
  split
  · rfl
  · split
    · split
      · rfl
      · split
        · rfl
        · split <;> rfl
    · rfl

/-- The owning rule of each code (R165 test 6). -/
theorem owningRule (code : RequestCode) (num : Byte) (args : List Byte) : ChannelSound (owningRule code num args s) := by
  cases code with
  | readObject => exact h.readObjectRule ..
  | writeConfig => exact h.writeConfigRule ..
  | readCounters => exact h.readCountersRule ..
  | openPlan => exact h.openPlanRule ..
  | writeSegment => exact h.writeSegmentRule ..
  | commitPlan => exact h.commitPlanRule ..
  | dropPlan => exact h.dropPlanRule ..
  | startTracking => exact h.startTrackingRule _
  | stopTracking => exact h.stopTrackingRule _
  | recover => exact h.recoverRule _
  | restart => exact h.restartEffect.congr rfl
  | ackNotice => exact h.ackNoticeRule ..
  | setNoticeMask => exact h.setNoticeMaskRule ..
  | fireTest => exact h.fireTestRule ..

theorem answerRequest (num code : Byte) (args : List Byte) : ChannelSound (answerRequest num code args s) := by
  have executed : ChannelSound (executeRequest num code args s) := by
    unfold executeRequest
    split
    · exact h.congr rfl
    · split
      · split
        · exact h.owningRule ..
        · exact h.congr rfl
      · exact h.owningRule ..
  unfold Machine.answerRequest
  split
  · split
    · exact h.congr rfl
    · exact executed
  · exact executed

theorem takeAddressedPayload (payload : List Byte) : ChannelSound (takeAddressedPayload payload s) := by
  unfold Machine.takeAddressedPayload takeAddressed
  split
  · split
    · exact h
    · split
      · exact h.answerRequest ..
      · split
        · exact h
        · split
          · exact h.answerRequest ..
          · exact h.congr rfl
  · exact h

theorem takeBroadcast (payload : List Byte) : ChannelSound (takeBroadcast payload s) := by
  unfold Machine.takeBroadcast
  split
  · split
    · split
      · exact h.congr rfl
      · exact h
    · split
      · exact h.stopEffect
      · exact h
    · exact h.restartEffect
    · exact h.bump _
  · exact h.bump _

theorem takeRequest (f : Frame) : ChannelSound (takeRequest f s) := by
  unfold Machine.takeRequest
  split
  · exact h.takeAddressedPayload _
  · split
    · exact (h.offerDown f).takeBroadcast _
    · exact h.offerDown f

theorem takeEnumerate (f : Frame) : ChannelSound (takeEnumerate f s) := by
  dsimp only [Machine.takeEnumerate]
  split
  · exact h.bump _
  · split
    · exact h.offerDown f
    · refine ChannelSound.offerDown (h.congr ?_) _
      split <;> rfl

/-! ## Frames and symbols -/

theorem frameArrival (p : Port) (f : Frame) : ChannelSound (frameArrival p f s) := by
  cases p with
  | d => exact h.offerUp f
  | u =>
    change ChannelSound (frameFromU f s)
    unfold frameFromU
    split
    · exact h.takeEnumerate f
    · split
      · exact h.offerDown f
      · split
        · exact h.takeRequest f
        · split
          · exact h.takeItem _
          · exact h.offerDown f

theorem receiveFrame (p : Port) (f : Frame) : ChannelSound (receiveFrame p f s) := by
  have between : ChannelSound (setFramer p .between (setViolationRun p 0
      (if assembling (s.links.get p) then takeRxError p .truncated s else s))) := (h.truncated p).congr rfl
  dsimp only [Machine.receiveFrame]
  split
  · exact h
  · split
    · exact between.rxError ..
    · split
      · exact between.rxError ..
      · exact between.frameArrival ..

theorem plainSymbol (p : Port) (sym : Symbol) : ChannelSound (plainSymbol p sym s) := by
  have run : ChannelSound (setViolationRun p 0 s) := h.congr rfl
  have erred (e : RxKind) := run.rxError p e
  have between : ChannelSound (setFramer p .between (setViolationRun p 0 s)) := h.congr rfl
  dsimp only [Machine.plainSymbol]
  split
  case h_1 | h_6 | h_7 => exact (erred _).congr rfl -- a symbol out of its place
  case h_4 => exact erred _
  case h_5 => -- the next byte of a frame in assembly
    split
    · exact (erred _).congr rfl
    · exact h.congr rfl
  case h_8 => -- its EOF
    split
    · exact between.rxError ..
    · exact between.frameArrival ..
  case h_13 => exact run.violationSymbol p
  all_goals exact h.congr rfl

theorem receiveSymbol (p : Port) (sym : Symbol) : ChannelSound (receiveSymbol p sym s) := by
  unfold Machine.receiveSymbol
  split
  · exact h
  · split
    · split
      · exact h.violationSymbol p
      · exact h.plainSymbol p _
    · exact h.alignSymbol p sym

/-! ## Resets and the dispatch -/

omit h in
theorem coldHeld (s : State) : ChannelSound (coldHeld s) :=
  (channelSound_iff _).mpr ⟨channelSound_reset.sources, channelSound_reset.notice.retransmits rfl fun _ => rfl⟩

theorem releaseReset (held : s.resetHeld = true) : ChannelSound (releaseReset s) := by
  refine (channelSound_iff _).mpr ⟨h.sources, h.notice.retransmits (Bool.eq_false_of_not_eq_true fun sends => ?_) nofun⟩
  obtain ⟨-, symbols, sending⟩ := h.sending sends
  exact absurd ((h.silent held).symm.trans sending) nofun

/-- The events of the channel and of transmitter U (R123 to R126, R158). -/
theorem channelEvents {c : Instr} (hc : c = .ackTimeout ∨ c = .noticeChoice ∨ c = .uTransmitGrant) (run : exec c s = .next t) :
    ChannelSound t := by
  rcases hc with rfl | rfl | rfl <;> cases run <;> split
  · obtain ⟨a, runs⟩ := Option.isSome_iff_exists.mp (Bool.and_eq_true_iff.mp ‹_›).1
    exact h.takeExpiry runs
  · exact h
  · split
    · exact h.takeChoice (pending_of_choosable ‹_›)
    · exact h
  · exact h
  · exact h.grantU (of_decide_eq_true (Bool.and_eq_true_iff.mp ‹_›).2)
  · exact h

/-- Every command keeps the channel sound. -/
theorem exec {c : Instr} (run : exec c s = .next t) : ChannelSound t := by
  cases hq : requestOf c with
  | some q =>
    obtain ⟨addr, num, code, args⟩ := q
    rw [exec_requestOf s hq] at run
    cases run
    exact h.receiveFrame ..
  | none =>
    cases c with
    | powerOn =>
      cases run
      split
      · exact coldHeld s
      · exact (coldHeld s).releaseReset rfl
    | resetAsserted => cases run; exact coldHeld s
    | resetReleased =>
      cases run
      split
      · exact h.releaseReset ‹_›
      · exact h
    | ackTimeout | noticeChoice | uTransmitGrant => exact h.channelEvents (by simp) run
    | sendingComplete p => cases run; exact h.completeSending p
    | portUp p =>
      cases run
      split
      · exact h
      · exact h.portGoesUp p
    | portDown p cause =>
      cases run
      split
      · exact h
      · split <;> split
        · exact h.portGoesDown p
        · exact h.congr rfl
        · exact h.violationSymbol p
        · exact h
    | receiveError p e => cases run; exact h.receiveErrorEvent p e
    | symbolReceived p sym => cases run; exact h.receiveSymbol p sym
    | item addr payload | enumerate v payload | downstreamRelay f | upstreamRelay f => cases run; exact h.receiveFrame ..
    | dTransmitGrant =>
      cases run
      refine h.congr ?_
      split
      · unfold grantD
        split
        · rfl
        · rfl
        · rfl
        · split <;> rfl
      · rfl
    | readRoute bank addr num args => cases bank <;> cases hq
    | forwardCount | backwardCount =>
      cases run
      split
      · exact h.congr rfl
      · refine congr (settleFuel ?_ _) rfl
        exact h.congr rfl
    | eyePinChange e high =>
      cases run
      split
      · exact h
      · split
        · exact h.congr rfl
        · exact (h.takeWaitingEdge e).congr rfl
    | encoderDoubleChange | laneFullChange k high => cases run; exact h.congr rfl
    | entryLeadingEdge | entryTrailingEdge | confirmLeadingEdge k | confirmTrailingEdge k | exitLeadingEdge
    | exitTrailingEdge => cases run; exact h.edgeCommand ..
    | reversal | blockedLimitReached e =>
      cases run
      split
      · exact h.takeFault _
      · exact h
    | approachWindowClose =>
      cases run
      split
      · exact h.removeRecord ..
      · exact h
    | confirmWindowClose | exitWindowClose =>
      cases run
      split
      · exact h.closeResolved ..
      · exact h
    | firingWindowEnd k | testFireEnd k => cases run; split <;> exact h.congr rfl
    | bankCheckCompletion =>
      cases run
      split
      · dsimp only [completeCheck]
        split <;> exact h.congr rfl
      · exact h
    | stall =>
      cases run
      split
      · split
        · exact h
        · exact h.reportStall _
      · exact h
    | _ => cases hq

end

end ChannelSound

/-- Settles O9: a step is a tick or a command, and each keeps the channel sound. -/
theorem stepKeepsChannelSound : Obligations.StepKeepsChannelSound := by
  intro s t h run
  unfold step at run
  split at run
  · cases run
    exact h.tick
  · rename_i rest _
    exact ChannelSound.exec (s := { s with pending := rest }) (h.congr rfl) run

end Sys2Proof.Safety
end

section
/-! PROOFS. The notice channel's own events and its requests, each as its rule's whole next state (R122 to R124, R126, R128). -/

namespace Sys2Proof.Machine

open Sys2Proof.Safety

/-! ## ACK_TIMEOUT -/

/-- The expiry of the running ack timer in OUTSTANDING (R126). -/
theorem exec_ackTimeout {s : State} (outstanding : s.report.channel.state = .outstanding)
    (runs : s.report.channel.timer.isSome = true) : exec .ackTimeout s = .next (takeExpiry s) :=
  congrArg _ (if_pos (by simp [outstanding, runs]))

theorem exec_ackTimeout_noEvent {s : State} (h : s.report.channel.state ≠ .outstanding ∨ s.report.channel.timer = none) :
    exec .ackTimeout s = .next s :=
  congrArg _ (if_neg (by rcases h with other | idle <;> simp [*]))

/-! ## NOTICE_CHOICE -/

/-- The sources stand in priority order at their places (Table 7-2). -/
theorem sourceIndex_of_allSources {n : Nat} {src : Source} (h : allSources[n]? = some src) : (sourceIndex src).val = n := by
  have places : (allSources.map sourceIndex)[n]? = some (sourceIndex src) := by rw [List.getElem?_map, h, Option.map_some]
  rw [allSources_places] at places
  obtain ⟨bound, place⟩ := List.getElem?_eq_some_iff.mp places
  simpa using (congrArg Fin.val place).symm

theorem not_choosable {x : SourceState} (h : x.pending = false ∨ x.masked = true) : (x.pending && !x.masked) = false := by
  rcases h with idle | masked
  · rw [idle]
    rfl
  · rw [masked]
    exact Bool.and_false _

/-- The source at a place is the first that is pending and not masked (R123). -/
theorem choosable_eq_some {s : State} {i : Fin 10} {src : Source} (place : allSources[i.val]? = some src)
    (pending : s.report.sources[i].pending = true) (unmasked : s.report.sources[i].masked = false)
    (first : ∀ j : Fin 10, j.val < i.val → s.report.sources[j].pending = false ∨ s.report.sources[j].masked = true) :
    choosable s = some src := by
  obtain rfl : sourceIndex src = i := Fin.ext (sourceIndex_of_allSources place)
  obtain ⟨bound, here⟩ := List.getElem?_eq_some_iff.mp place
  refine List.find?_eq_some_iff_getElem.mpr ⟨by simp_all, (sourceIndex src).val, bound, here, fun j before => ?_⟩
  have earlier : (sourceIndex allSources[j]).val = j := sourceIndex_of_allSources (List.getElem?_eq_getElem _)
  exact congrArg not (not_choosable (first _ (earlier.trans_lt before)))

theorem choosable_eq_none {s : State} (h : ∀ i : Fin 10, s.report.sources[i].pending = false ∨ s.report.sources[i].masked = true) :
    choosable s = none :=
  List.find?_eq_none.mpr fun src _ => Bool.eq_false_iff.mp (not_choosable (h (sourceIndex src)))

theorem exec_noticeChoice {s : State} {src : Source} (idle : s.report.channel.state = .idle) (chosen : choosable s = some src) :
    exec .noticeChoice s = .next (takeChoice src s) := by
  simp only [exec, execNoticeChoice, if_pos idle, chosen]

theorem exec_noticeChoice_noEvent {s : State} (h : s.report.channel.state ≠ .idle ∨ choosable s = none) :
    exec .noticeChoice s = .next s := by
  by_cases idle : s.report.channel.state = .idle
  · simp only [exec, execNoticeChoice, if_pos idle, h.resolve_left (not_not_intro idle)]
  · exact congrArg _ (if_neg idle)

/-! ## ACK_NOTICE -/

section

variable {n : Notice} {s : State} (num : Byte)

/-- The acknowledgement that matches (R128). -/
theorem ackNoticeRule_matches (active : s.report.channel.state ≠ .idle) (holds : s.report.channel.outstanding = some n) :
    ackNoticeRule num [n.seq] s =
      answered num 0x30 0x00 []
        { s with report := { s.report with channel := ⟨.idle, s.report.channel.seq, none, 0, none, none, false⟩ } } := by
  simp only [ackNoticeRule, holds]
  exact if_pos ⟨active, trivial⟩

theorem ackNoticeRule_stale {q : Byte} (active : s.report.channel.state ≠ .idle) (holds : s.report.channel.outstanding = some n)
    (other : n.seq ≠ q) :
    ackNoticeRule num [q] s = answered num 0x30 0x09 [channelByte s.report.channel.state, n.seq] s := by
  simp only [ackNoticeRule, holds, other, and_false, if_false, if_neg active, channelByte_eq]
  rfl

theorem ackNoticeRule_idle {q : Byte} (idle : s.report.channel.state = .idle) :
    ackNoticeRule num [q] s = answered num 0x30 0x09 [0, 0] s := by
  cases holds : s.report.channel.outstanding with
  | none =>
    simp only [ackNoticeRule, holds, idle]
    rfl
  | some n =>
    simp only [ackNoticeRule, holds, idle, ne_eq, not_true, false_and, if_false, if_true]
    rfl

end

/-! ## SET_NOTICE_MASK -/

/-- Each bit of the word is what its place gives. -/
theorem getLsbD_bitsWhere {n : Nat} (hn : n ≤ 16) (f : Fin n → Bool) (j : Nat) :
    (bitsWhere f).getLsbD j = if h : j < n then f ⟨j, h⟩ else false := by
  induction n with
  | zero => simp [bitsWhere]
  | succ n ih =>
    have top : (1#16 <<< n).getLsbD j = decide (j = n) :=
      (BitVec.getLsbD_twoPow n j).trans (by simp [Nat.lt_of_succ_le hn, eq_comm])
    have parts : (bitsWhere f).getLsbD j =
        ((bitsWhere fun i => f i.castSucc).getLsbD j || (f (Fin.last n) && decide (j = n))) := by
      rw [bitsWhere_succ]
      cases f (Fin.last n) <;> simp [top]
    rw [parts, ih (by omega)]
    rcases Nat.lt_trichotomy j n with below | rfl | above
    · simp [below, below.ne, Nat.lt_succ_of_lt below]
    · simp [Fin.last]
    · simp [above.ne', Nat.not_lt.mpr above.le, Nat.not_lt.mpr (Nat.succ_le_of_lt above)]

theorem setMasks_eq (m : BitVec 16) (v : Vector SourceState 10) :
    setMasks m v = Vector.ofFn fun i : Fin 10 => { v[i] with masked := decide (i.val ≠ 0) && m.getLsbD i.val } := by
  ext i hi : 1
  simp [setMasks]

/-- The masks of a word, as the mask word shows them (R122). -/
theorem maskWord_setMasks (m : BitVec 16) (r : ReportUnit) : maskWord { r with sources := setMasks m r.sources } = m &&& 0x03FE := by
  have masks : sourceBits SourceState.masked (setMasks m r.sources) =
      bitsWhere fun i : Fin 10 => decide (i.val ≠ 0) && m.getLsbD i.val := by
    refine congrArg bitsWhere (funext fun i => ?_)
    simp [setMasks]
  have word : ∀ j, j < 16 →
      (0x03FE : BitVec 16).getLsbD j = decide (j < 10 ∧ j ≠ 0) ∧ (0xFFFE : BitVec 16).getLsbD j = decide (j ≠ 0) := by
    decide
  rw [maskWord_eq, masks]
  refine BitVec.eq_of_getLsbD_eq fun j hj => ?_
  obtain ⟨maskable, later⟩ := word j hj
  rw [BitVec.getLsbD_and, BitVec.getLsbD_and, maskable, later, getLsbD_bitsWhere (by decide)]
  by_cases zero : j = 0
  · simp [zero]
  · by_cases source : j < 10
    · simp [zero, source]
    · simp [source]

/-- SET_NOTICE_MASK (R122). -/
theorem setNoticeMaskRule_eq (num : Byte) (m : BitVec 16) (s : State) :
    setNoticeMaskRule num (two m) s =
      answered num 0x31 0x00 (two (m &&& 0x03FE)) { s with report := { s.report with sources := setMasks m s.report.sources } } := by
  simp only [setNoticeMaskRule, of16_two, maskWord_setMasks]
  rfl

end Sys2Proof.Machine

namespace Sys2Proof.Safety

open Sys2Proof.Machine

/-- Settles O34. -/
theorem ackTimeoutRetriesOrQuiets : Obligations.AckTimeoutRetriesOrQuiets := by
  refine fun s => ⟨fun outstanding runs => ?_, exec_ackTimeout_noEvent⟩
  rw [exec_ackTimeout outstanding runs]
  exact ⟨fun left => congrArg _ (if_pos left), fun spent => congrArg _ (if_neg (Nat.not_lt.mpr spent))⟩

/-- Settles O35: the choice is the source found at the place, and its notice is built as Table 11-9 gives it. -/
theorem noticeChoiceTakesHighestSource : Obligations.NoticeChoiceTakesHighestSource := by
  intro s
  refine ⟨fun i src idle place pending unmasked first => ?_, fun h => exec_noticeChoice_noEvent (h.imp_right choosable_eq_none)⟩
  rw [exec_noticeChoice idle (choosable_eq_some place pending unmasked first)]
  obtain rfl : sourceIndex src = i := Fin.ext (sourceIndex_of_allSources place)
  simp only [takeChoice, noticeFrame, modeByte_eq]
  cases src with
  | trackLost => simp only [noticeDetail, causeByte_eq]; rfl
  | linkChange | rxError => simp only [noticeDetail, portsByte_eq]; rfl
  | _ => rfl

/-- Settles O36: both requests reach their owning rules. -/
theorem noticesAcknowledgedAndMasked : Obligations.NoticesAcknowledgedAndMasked := by
  have channel (s : State) : (heard .u s).report.channel = s.report.channel := by simp [heard_fields]
  refine ⟨fun addr num q s ht => ?_, fun addr num m s ht => ?_⟩
  · rw [exec_of_takes (args := [q]) .ackNotice rfl ht (.inr rfl), owningRule, ← channel]
    refine ⟨fun n active holds => ⟨?_, fun other => ?_⟩, fun idle => ?_⟩
    · rintro rfl
      rw [ackNoticeRule_matches num active holds]
    · rw [ackNoticeRule_stale num active holds other]
    · rw [ackNoticeRule_idle num idle]
  · rw [exec_of_takes (args := two m) .setNoticeMask rfl ht (.inr rfl), owningRule, setNoticeMaskRule_eq, setMasks_eq]

end Sys2Proof.Safety
end

section
/-! PROOFS. The end of a sending (R125, R130, R135) and READ_COUNTERS (R132, R133), each as its rule's whole next state. -/

namespace Sys2Proof.Machine

open Sys2Proof.Safety

/-! ## SENDING_COMPLETE -/

/-- A frame of transmitter U has been sent, the outstanding notice's apart (R135). -/
theorem exec_sendingComplete_u {source : TxSource} {symbols : List Symbol} {s : State} (busy : s.relay.txU = .sending source symbols)
    (other : source = .notice → s.report.channel.sending = false) :
    exec (.sendingComplete .u) s = .next { s with relay := { s.relay with txU := .idle } } := by
  cases source with
  | notice =>
    simp only [exec, execSendingComplete, completeSending, busy]
    exact congrArg _ (if_neg (by simp [other rfl]))
  | _ => simp only [exec, execSendingComplete, completeSending, busy]

/-! ## READ_COUNTERS -/

/-- A counter of the range is cleared where the clear flag asks for it (R133). -/
theorem clearCounters_eq (first n : Nat) (v : Vector (BitVec 32) 33) :
    clearCounters first n v = Vector.ofFn fun i : Fin 33 => if first ≤ i.val ∧ i.val < first + n then 0 else v[i] := by
  ext i hi : 1
  simp [clearCounters]

section

variable (num clear : Byte) {first n : Byte} (s : State)

theorem readCountersRule_badArg (bad : n = 0 ∨ 16 < n.toNat ∨ 33 < first.toNat + n.toNat) :
    readCountersRule num [first, n, clear] s = answered num 0x03 0x05 [] s := by
  refine if_neg fun ⟨least, most, fits⟩ => ?_
  rcases bad with rfl | bad
  · exact absurd least (by decide)
  · omega

theorem readCountersRule_done (least : 1 ≤ n.toNat) (most : n.toNat ≤ 16) (fits : first.toNat + n.toNat ≤ 33) :
    readCountersRule num [first, n, clear] s =
      answered num 0x03 0x00
        ([first, n] ++ ((s.report.counters.toList.drop first.toNat).take n.toNat).flatMap (fun w => four w))
        { s with report := { s.report with
          counters := Vector.ofFn (fun i : Fin 33 =>
            if clear.getLsbD 0 = true ∧ first.toNat ≤ i.val ∧ i.val < first.toNat + n.toNat then 0
            else s.report.counters[i]) } } := by
  refine (if_pos ⟨least, most, fits⟩).trans ?_
  cases flag : clear.getLsbD 0 with
  | true =>
    simp only [true_and]
    rw [← clearCounters_eq]
    rfl
  | false =>
    have kept : (Vector.ofFn fun i : Fin 33 => s.report.counters[i]) = s.report.counters := Vector.ofFn_getElem
    simp only [Bool.false_eq_true, false_and, if_false]
    rw [kept]
    rfl

end

end Sys2Proof.Machine

namespace Sys2Proof.Safety

open Sys2Proof.Machine

/-- Settles O47. -/
theorem sendingCompletes : Obligations.SendingCompletes := by
  refine fun s => ⟨fun symbols busy => ⟨fun sends => ?_, fun withdrawn => ?_⟩, fun src symbols busy other => ?_,
    fun src symbols busy => ?_, fun idle => ?_, fun idle => ?_⟩
  · simp only [exec, execSendingComplete, completeSending, busy]
    exact congrArg _ (if_pos sends)
  · exact exec_sendingComplete_u busy fun _ => withdrawn
  · exact exec_sendingComplete_u busy fun notice => absurd notice other
  · simp only [exec, execSendingComplete, completeSending, busy]
  · rcases idle with idle | silent <;> simp only [exec, execSendingComplete, completeSending, *]
  · rcases idle with idle | silent <;> simp only [exec, execSendingComplete, completeSending, *]

/-- Settles O53. -/
theorem countersRead : Obligations.CountersRead := by
  intro addr num first n clear s ht
  rw [exec_of_takes (args := [first, n, clear]) .readCounters rfl ht (.inr rfl), owningRule]
  exact ⟨fun least most fits => congrArg _ (readCountersRule_done num clear _ least most fits),
    fun bad => congrArg _ (readCountersRule_badArg num clear _ bad)⟩

end Sys2Proof.Safety
end

section
/-! PROOFS. The receive side of a port, each event and symbol as its rule's whole next state (R136 to R146, Table 8-2). -/

namespace Sys2Proof.Machine

open Sys2Proof.Safety

/-! ## The framer and the violation run of a port -/

section

variable (p : Port) (f : Framer) (n : Nat) (e : RxKind) (s : State)

theorem framed_links_get : (framed p f n s).links.get p = { s.links.get p with framer := f, violationRun := n } :=
  PerPort.get_set_self ..

theorem framed_framer : ((framed p f n s).links.get p).framer = f := by rw [framed_links_get]

@[simp] theorem framed_framed (g : Framer) (m : Nat) : framed p g m (framed p f n s) = framed p g m s := by
  simp [framed]

theorem setViolationRun_eq : setViolationRun p n s = framed p (s.links.get p).framer n s := rfl

@[simp] theorem setFramer_framed (g : Framer) : setFramer p g (framed p f n s) = framed p g n s := by
  simp [setFramer, setLink, framed]

/-- The error of a port neither reads nor moves its framer and its violation run (R146). -/
@[simp] theorem rxErred_framed : rxErred p e (framed p f n s) = framed p f n (rxErred p e s) := by cases p <;> rfl

end

/-- The state in which a symbol has cut off the frame in assembly, if there is one (R142). -/
def cutOff (p : Port) (s : State) : State := if assembling (s.links.get p) then rxErred p .truncated s else s

section

variable {p : Port} {s : State}

theorem cutOff_of_assembles (h : Assembles p s) : cutOff p s = rxErred p .truncated s := if_pos ((assembling_iff p s).mpr h)

theorem cutOff_of_not_assembles (h : ¬ Assembles p s) : cutOff p s = s :=
  if_neg (Bool.eq_false_iff.mp (assembling_eq_false h))

theorem hears_framed (f : Framer) (n : Nat) (h : Hears p s) : Hears p (framed p f n s) := ⟨h.1, by rw [framed_links_get]; exact h.2⟩

theorem hears_cutOff (h : Hears p s) : Hears p (cutOff p s) := by
  unfold cutOff
  split
  · cases p <;> exact h
  · exact h

theorem heard_eq (p : Port) (s : State) : heard p s = framed p .between 0 (cutOff p s) := by
  unfold heard cutOff assembling
  cases (s.links.get p).framer <;> rfl

/-! ## Ports that go down, and violation symbols -/

theorem portGoesDown_eq (p : Port) (s : State) : portGoesDown p s = wentDown p (cutOff p s) := by
  by_cases h : Assembles p s
  · rw [portGoesDown_eq_of_assembles p s h, cutOff_of_assembles h]
  · rw [portGoesDown_eq_of_not_assembles p s h, cutOff_of_not_assembles h]

/-- The error that a violation symbol is: a truncation with a frame in assembly, else a violation (R142, R145). -/
def violationError (p : Port) (s : State) : RxKind := if assembling (s.links.get p) then .truncated else .violation

theorem violationError_of_assembles (h : Assembles p s) : violationError p s = .truncated :=
  if_pos ((assembling_iff p s).mpr h)

theorem violationError_of_not_assembles (h : ¬ Assembles p s) : violationError p s = .violation :=
  if_neg (Bool.eq_false_iff.mp (assembling_eq_false h))

/-- The fourth violation in a row (R137). -/
theorem violationSymbol_of_three_le (h : 3 ≤ (s.links.get p).violationRun) :
    violationSymbol p s = wentDown p (rxErred p (violationError p s) s) :=
  (violationSymbol_eq p s).trans (if_pos h)

/-- A violation before the fourth in a row (R137, R142, R145). -/
theorem violationSymbol_of_lt_three (h : (s.links.get p).violationRun < 3) :
    violationSymbol p s = framed p .discard ((s.links.get p).violationRun + 1) (rxErred p (violationError p s) s) :=
  (violationSymbol_eq p s).trans (if_neg (Nat.not_le.mpr h))

/-! ## Receive errors given as events -/

theorem receiveErrorEvent_of_not_hears (h : ¬ Hears p s) (e : RxEvent) : receiveErrorEvent p e s = s := by
  unfold receiveErrorEvent
  exact if_pos (by_contra fun receives => h (by simpa using receives))

section

variable (hears : Hears p s)
include hears

/-- A violation error that a violation symbol shows is one only with no frame in assembly (R145). -/
theorem receiveErrorEvent_violation :
    receiveErrorEvent p (.violation .violation) s = if assembling (s.links.get p) then s else violationSymbol p s := by
  simp [receiveErrorEvent, hears]

/-- A violation error that a data symbol shows is one only in BETWEEN (R145). -/
theorem receiveErrorEvent_data :
    receiveErrorEvent p (.violation .data) s =
      if (s.links.get p).framer = .between then framed p .discard 0 (rxErred p .violation s) else s := by
  simp [receiveErrorEvent, hears, setViolationRun_eq, takeRxError_eq]

/-- A violation error that an EOF symbol shows is one only in BETWEEN (R145). -/
theorem receiveErrorEvent_eof :
    receiveErrorEvent p (.violation .eof) s =
      if (s.links.get p).framer = .between then framed p .between 0 (rxErred p .violation s) else s := by
  simp +contextual [receiveErrorEvent, hears, setViolationRun_eq, takeRxError_eq]

end

/-! ## Symbols at a port that receives (Table 8-2) -/

theorem exec_violation (h : Hears p s) : exec (.symbolReceived p .violation) s = .next (violationSymbol p s) := by
  simp [exec, execSymbolReceived, receiveSymbol, h]

theorem exec_plainSymbol (x : Symbol) (h : Hears p s) (plain : x ≠ .violation) :
    exec (.symbolReceived p x) s = .next (plainSymbol p x s) := by
  simp only [exec, execSymbolReceived, receiveSymbol, h]
  cases x with
  | violation => exact absurd rfl plain
  | _ => rfl

/-- No frame is open in BETWEEN: data and EOF are violations there (R145). -/
theorem plainSymbol_between (h : (s.links.get p).framer = .between) (b : Byte) :
    plainSymbol p (.data b) s = framed p .discard 0 (rxErred p .violation s) ∧
    plainSymbol p .idle s = framed p .between 0 s ∧
    plainSymbol p .eof s = framed p .between 0 (rxErred p .violation s) := by
  simp [plainSymbol, h, setViolationRun_eq, takeRxError_eq]

/-- In DISCARD everything up to the next boundary is passed over (R139). -/
theorem plainSymbol_discard (h : (s.links.get p).framer = .discard) (b : Byte) :
    plainSymbol p (.data b) s = framed p .discard 0 s ∧
    plainSymbol p .idle s = framed p .between 0 s ∧
    plainSymbol p .eof s = framed p .between 0 s := by
  simp [plainSymbol, h, setViolationRun_eq]

/-- A frame in assembly takes the bytes that its length allows, up to the EOF that has it judged (R139, R140, R142, R143). -/
theorem plainSymbol_inFrame {bytes : List Byte} (h : (s.links.get p).framer = .inFrame bytes) :
    (∀ x, Overfull bytes x → plainSymbol p (.data x) s = framed p .discard 0 (rxErred p .oversize s)) ∧
    (∀ x, ¬ Overfull bytes x → plainSymbol p (.data x) s = framed p (.inFrame (bytes ++ [x])) 0 s) ∧
    plainSymbol p .idle s = framed p .between 0 (rxErred p .truncated s) ∧
    (∀ e, judgeFrame p bytes = .inl e → plainSymbol p .eof s = framed p .between 0 (rxErred p e s)) ∧
    (∀ f, judgeFrame p bytes = .inr f → plainSymbol p .eof s = frameArrival p f (framed p .between 0 s)) := by
  refine ⟨fun x full => ?_, fun x room => ?_, ?_, fun e judged => ?_, fun f judged => ?_⟩
  · rw [← oversizeByte_iff] at full
    simp [plainSymbol, h, full, setViolationRun_eq, takeRxError_eq]
  · rw [← oversizeByte_iff] at room
    simp [plainSymbol, h, room, setViolationRun_eq]
  · simp [plainSymbol, h, setViolationRun_eq, takeRxError_eq]
  · simp [plainSymbol, h, judged, setViolationRun_eq, takeRxError_eq]
  · simp [plainSymbol, h, judged, setViolationRun_eq]

/-- A SOF opens a frame in every state of the framer, cutting off the one in assembly (R139, R142). -/
theorem plainSymbol_sof (p : Port) (s : State) : plainSymbol p .sof s = framed p (.inFrame []) 0 (cutOff p s) := by
  unfold plainSymbol cutOff assembling
  cases (s.links.get p).framer <;> simp [setViolationRun_eq, takeRxError_eq]

/-! ## The checks at the EOF (R140, R141, R144) -/

theorem kindFits_iff (p : Port) (kind : Byte) : kindFits p kind = true ↔ (kind.getLsbD 7 = true ↔ p = .d) := by
  have high : kindUpstream kind = kind.getLsbD 7 := BitVec.msb_eq_getLsbD_last kind
  cases p <;> simp [kindFits, high]

/-- A frame of the other direction class (R144). -/
theorem kindFits_of_wrong {kind : Byte} (wrong : kind.getLsbD 7 = true ↔ p = .u) : kindFits p kind = false := by
  rw [Bool.eq_false_iff, ne_eq, kindFits_iff, wrong]
  cases p <;> simp

theorem judgeFrame_complete {k a n : Byte} {payload crc : List Byte} (length : payload.length = n.toNat) (pair : crc.length = 2) :
    judgeFrame p (k :: a :: n :: (payload ++ crc)) =
      if two (crc16 (k :: a :: n :: payload)) ≠ crc then .inl .crc
      else if !kindFits p k then .inl .misdirected
      else .inr ⟨k, a, payload⟩ := by
  simp [judgeFrame, pair, ← length, be16]

theorem judgeFrame_of_crc {k a n : Byte} {payload crc : List Byte} (length : payload.length = n.toNat) (pair : crc.length = 2)
    (bad : crc ≠ two (crc16 (k :: a :: n :: payload))) : judgeFrame p (k :: a :: n :: (payload ++ crc)) = .inl .crc :=
  (judgeFrame_complete length pair).trans (if_pos bad.symm)

/-- The bytes of a frame with their CRC-16 are judged by the direction class alone (R144). -/
theorem judgeFrame_sound {k a n : Byte} {payload : List Byte} (length : payload.length = n.toNat) :
    judgeFrame p (k :: a :: n :: (payload ++ two (crc16 (k :: a :: n :: payload)))) =
      if kindFits p k = false then .inl .misdirected else .inr ⟨k, a, payload⟩ := by
  rw [judgeFrame_complete length rfl, if_neg fun other => other rfl]
  cases kindFits p k <;> rfl

end

end Sys2Proof.Machine

namespace Sys2Proof.Safety

open Sys2Proof.Machine

/-- Settles O37, by the errors that a port takes before it goes DOWN. -/
theorem portsGoUpAndDown : Obligations.PortsGoUpAndDown := by
  intro p s
  have lost (hears : Hears p s) : exec (.portDown p .lossOfSignal) s = .next (wentDown p (cutOff p s)) := by
    simp [exec, execPortDown, hears, portGoesDown_eq]
  have fourth (hears : Hears p s) (run : (s.links.get p).violationRun = 3) :
      exec (.portDown p .fourthViolation) s = .next (wentDown p (rxErred p (violationError p s) s)) := by
    rw [← violationSymbol_of_three_le run.ge]
    simp [exec, execPortDown, hears, run, Config.violationLimit]
  refine ⟨fun released down => ?_, fun idle => ?_, fun hears held => ?_, fun hears free => ?_, fun released down => ?_,
    fun hears run held => ?_, fun hears run free => ?_, fun none => ?_, fun held cause => ?_⟩
  · simp [exec, execPortUp, released, down, portGoesUp_eq]
  · rcases idle with held | up <;> simp [exec, execPortUp, *]
  · rw [lost hears, cutOff_of_assembles held]
  · rw [lost hears, cutOff_of_not_assembles free]
  · simp [exec, execPortDown, released, down, setAlignRun, setLink]
  · rw [fourth hears run, violationError_of_assembles held]
  · rw [fourth hears run, violationError_of_not_assembles free]
  · simp only [exec, execPortDown]
    split
    · rfl
    · refine congrArg _ (if_neg fun fires => ?_)
      obtain ⟨up, run⟩ := Bool.and_eq_true_iff.mp fires
      rcases none with deaf | other
      · exact deaf ⟨Bool.eq_false_of_not_eq_true ‹_›, up⟩
      · exact other (Nat.succ_injective (of_decide_eq_true run))
  · simp [exec, execPortDown, held]

/-- Settles O38, by the kind of the error and the symbol that shows it. -/
theorem receiveErrorsTaken : Obligations.ReceiveErrorsTaken := by
  intro p s
  have event (e : RxEvent) : exec (.receiveError p e) s = .next (receiveErrorEvent p e s) := rfl
  simp only [event]
  refine ⟨fun hears => ⟨?crc, ?misdirected, ?oversize, ?violation, ?idle, ?sof, ?eof, fun free run => ?_, fun free run => ?_,
    fun held => ?_, fun between => ⟨?_, ?_⟩, fun other => ⟨?_, ?_⟩⟩, fun deaf e => congrArg _ (receiveErrorEvent_of_not_hears deaf e)⟩
  case crc | misdirected | oversize | violation | idle | sof | eof =>
    simp [receiveErrorEvent, hears, setViolationRun_eq, takeRxError_eq]
  · rw [receiveErrorEvent_violation hears, if_neg (by simp [assembling_eq_false free]), violationSymbol_of_lt_three run,
      violationError_of_not_assembles free]
  · rw [receiveErrorEvent_violation hears, if_neg (by simp [assembling_eq_false free]), violationSymbol_of_three_le run.ge,
      violationError_of_not_assembles free]
  · rw [receiveErrorEvent_violation hears, if_pos ((assembling_iff p s).mpr held)]
  · rw [receiveErrorEvent_data hears, if_pos between]
  · rw [receiveErrorEvent_eof hears, if_pos between]
  · rw [receiveErrorEvent_data hears, if_neg other]
  · rw [receiveErrorEvent_eof hears, if_neg other]

/-! ## Every symbol -/

/-- A DOWN port only counts its alignment run (R136). -/
theorem exec_alignSymbol {p : Port} {s : State} (released : s.resetHeld = false) (down : (s.links.get p).up = false) (x : Symbol) :
    exec (.symbolReceived p x) s = .next (alignSymbol p x s) := by
  simp [exec, execSymbolReceived, receiveSymbol, released, down]

theorem alignSymbol_plain {x : Symbol} (plain : x ≠ .violation) (p : Port) (s : State) :
    alignSymbol p x s =
      if 31 ≤ (s.links.get p).alignRun then wentUp p s else setAlignRun p ((s.links.get p).alignRun + 1) s := by
  rw [← portGoesUp_eq]
  cases x with
  | violation => exact absurd rfl plain
  | _ => exact if_congr Nat.succ_le_succ_iff rfl rfl

/-- Settles O39, by the rows of Table 8-2, one for each state of the framer. -/
theorem symbolTable : Obligations.SymbolTable := by
  intro p s
  refine ⟨fun held x => congrArg _ (if_pos held), fun released down => ⟨?_, fun x plain short => ?_, fun x plain long => ?_⟩,
    fun hears => ?_⟩
  · exact exec_alignSymbol released down .violation
  · rw [exec_alignSymbol released down, alignSymbol_plain plain, if_neg (by omega)]
    rfl
  · rw [exec_alignSymbol released down, alignSymbol_plain plain, if_pos long]
  have step {x : Symbol} {t : State} (plain : x ≠ .violation) (row : plainSymbol p x s = t) :
      exec (.symbolReceived p x) s = .next t :=
    (exec_plainSymbol x hears plain).trans (congrArg _ row)
  refine ⟨fun b between => ?_, fun b discard => ?_, fun free => ?_, fun bytes held => ?_, ?_⟩
  · obtain ⟨data, idle, eof⟩ := plainSymbol_between between b
    exact ⟨step nofun data, step nofun idle, step nofun eof⟩
  · obtain ⟨data, idle, eof⟩ := plainSymbol_discard discard b
    exact ⟨step nofun data, step nofun idle, step nofun eof⟩
  · exact step nofun ((plainSymbol_sof p s).trans (by rw [cutOff_of_not_assembles free]))
  · obtain ⟨full, room, idle, error, -⟩ := plainSymbol_inFrame held
    refine ⟨fun x h => step nofun (full x h), fun x h => step nofun (room x h), step nofun idle,
      step nofun ((plainSymbol_sof p s).trans (by rw [cutOff_of_assembles ⟨bytes, held⟩])),
      fun incomplete => step nofun (error _ (judgeFrame_of_incomplete p incomplete)),
      fun k a n payload crc spelt length pair bad => step nofun (error _ ?_),
      fun k a n payload spelt length wrong => step nofun (error _ ?_)⟩
    · rw [spelt, judgeFrame_of_crc length pair bad]
    · rw [spelt, judgeFrame_sound length, if_pos (kindFits_of_wrong wrong)]
  · rintro n rfl
    refine ⟨fun few held => ?_, fun few free => ?_, fun many held => ?_, fun many free => ?_⟩ <;> rw [exec_violation hears]
    · rw [violationSymbol_of_lt_three few, violationError_of_assembles held]
    · rw [violationSymbol_of_lt_three few, violationError_of_not_assembles free]
    · rw [violationSymbol_of_three_le many, violationError_of_assembles held]
    · rw [violationSymbol_of_three_le many, violationError_of_not_assembles free]

end Sys2Proof.Safety
end

section
/-! PROOFS. A frame's symbols are its arrival (R135, R139 to R141, R144), and what a frame's arrival is where the station does not
consume it (R150, R151, R154 to R156). -/

namespace Sys2Proof.Machine

open Sys2Proof.Safety

/-! ## Symbols one after the other -/

theorem received_append {p : Port} {xs ys : List Symbol} {s u t : State} (first : Received p xs s u) (rest : Received p ys u t) :
    Received p (xs ++ ys) s t := by
  induction xs generalizing s with
  | nil => exact first ▸ rest
  | cons x xs ih =>
    obtain ⟨v, taken, more⟩ := first
    exact ⟨v, taken, ih more⟩

/-- A byte within what a sound frame's length allows does not make it oversize (R143). -/
theorem not_overfull_of_assemblySound {held rest : List Byte} {x : Byte} (h : assemblySound (held ++ x :: rest)) :
    ¬ Overfull held x := by
  rintro (⟨two, long⟩ | ⟨k, a, n, bytes, rfl, full⟩)
  · match held, two with
    | [_, _], _ => exact absurd h.1 (Nat.not_le.mpr long)
  · have room : (bytes ++ x :: rest).length ≤ n.toNat + 2 := h.2
    simp at room
    omega

/-- The bytes of a sound frame join the frame in assembly one by one (R139). -/
theorem received_data {p : Port} {s : State} (hears : Hears p s) {held bytes : List Byte} (sound : assemblySound (held ++ bytes)) :
    Received p (bytes.map .data) (framed p (.inFrame held) 0 s) (framed p (.inFrame (held ++ bytes)) 0 s) := by
  induction bytes generalizing held with
  | nil =>
    rw [List.append_nil]
    rfl
  | cons x rest ih =>
    obtain ⟨-, room, -⟩ := plainSymbol_inFrame (framed_framer p (.inFrame held) 0 s)
    have taken := room x (not_overfull_of_assemblySound sound)
    rw [framed_framed] at taken
    refine ⟨_, (exec_plainSymbol (.data x) (hears_framed _ _ hears) nofun).trans (congrArg _ taken), ?_⟩
    rw [List.append_cons held x rest] at sound ⊢
    exact ih sound

/-- The bytes between SOF and EOF (R135). -/
def bodyBytes (f : Frame) : List Byte := frameBytes f ++ two (crc16 (frameBytes f))

theorem wire_eq (f : Frame) : wire f = .sof :: ((bodyBytes f).map .data ++ [.eof]) := (frameSymbols_eq f).symm

theorem toNat_lengthByte {f : Frame} (fits : f.payload.length ≤ 80) : (byteOf f.payload.length).toNat = f.payload.length :=
  (BitVec.toNat_ofNat ..).trans (Nat.mod_eq_of_lt (by omega))

theorem assemblySound_bodyBytes {f : Frame} (fits : f.payload.length ≤ 80) : assemblySound (bodyBytes f) :=
  ⟨(toNat_lengthByte fits).trans_le fits, by simp [toNat_lengthByte fits]⟩

theorem judgeFrame_bodyBytes (p : Port) {f : Frame} (fits : f.payload.length ≤ 80) :
    judgeFrame p (bodyBytes f) = if kindFits p f.kind = false then .inl .misdirected else .inr f :=
  judgeFrame_sound (toNat_lengthByte fits).symm

/-! ## A whole frame -/

section

variable {p : Port} {f : Frame} {s : State} (hears : Hears p s)
include hears

theorem receiveFrame_oversize (long : 80 < f.payload.length) : receiveFrame p f s = rxErred p .oversize (heard p s) := by
  rw [receiveFrame_eq p f s hears, if_pos long, takeRxError_eq]

theorem receiveFrame_misdirected (fits : f.payload.length ≤ 80) (wrong : kindFits p f.kind = false) :
    receiveFrame p f s = rxErred p .misdirected (heard p s) := by
  rw [receiveFrame_eq p f s hears, if_neg (Nat.not_lt.mpr fits), if_pos wrong, takeRxError_eq]

theorem receiveFrame_good (fits : f.payload.length ≤ 80) (good : kindFits p f.kind = true) :
    receiveFrame p f s = frameArrival p f (heard p s) := by
  rw [receiveFrame_eq p f s hears, if_neg (Nat.not_lt.mpr fits), if_neg (by simp [good])]

/-- The EOF of a frame whose bytes are all in assembly is the frame's arrival (R140, R144). -/
theorem exec_eof_bodyBytes (fits : f.payload.length ≤ 80) :
    exec (.symbolReceived p .eof) (framed p (.inFrame (bodyBytes f)) 0 (cutOff p s)) = .next (receiveFrame p f s) := by
  obtain ⟨-, -, -, error, good⟩ := plainSymbol_inFrame (framed_framer p (.inFrame (bodyBytes f)) 0 (cutOff p s))
  rw [exec_plainSymbol .eof (hears_framed _ _ (hears_cutOff hears)) nofun]
  cases kind : kindFits p f.kind with
  | false =>
    rw [error .misdirected ((judgeFrame_bodyBytes p fits).trans (if_pos kind)), receiveFrame_misdirected hears fits kind, heard_eq,
      rxErred_framed, rxErred_framed, framed_framed]
  | true =>
    rw [good f ((judgeFrame_bodyBytes p fits).trans (if_neg (by simp [kind]))), receiveFrame_good hears fits kind, heard_eq,
      framed_framed]

/-- The symbols of a frame, one by one, are the frame's arrival. -/
theorem received_wire (fits : f.payload.length ≤ 80) : Received p (wire f) s (receiveFrame p f s) := by
  have sof : exec (.symbolReceived p .sof) s = .next (framed p (.inFrame []) 0 (cutOff p s)) :=
    (exec_plainSymbol .sof hears nofun).trans (congrArg _ (plainSymbol_sof p s))
  rw [wire_eq]
  exact ⟨_, sof, received_append (received_data (hears_cutOff hears) (assemblySound_bodyBytes fits))
    ⟨_, exec_eof_bodyBytes hears fits, rfl⟩⟩

end

/-! ## Frames that are not consumed -/

/-- The frames of port U that the station does not consume (R150, R151). -/
theorem frameFromU_relayed {f : Frame} {s : State}
    (h : (s.control.mode = .transparent ∧ f.kind ≠ 0x03) ∨ (f.kind ≠ 0x01 ∧ f.kind ≠ 0x02 ∧ f.kind ≠ 0x03)
      ∨ (f.kind = 0x02 ∧ f.addr ≠ s.relay.address.setWidth 8 ∧ f.addr ≠ 63)) :
    frameFromU f s = relayedDown f s := by
  rw [← offerDown_eq]
  rcases h with ⟨transparent, other⟩ | ⟨item, request, enumerate⟩ | ⟨request, foreign, single⟩
  · exact (if_neg other).trans (if_pos transparent)
  · exact (if_neg enumerate).trans (ite_eq_left_iff.mpr fun _ => (if_neg request).trans (if_neg item))
  · have taken : takeRequest f s = offerDown f s := (if_neg foreign).trans (if_neg single)
    exact (if_neg (by rw [request]; decide)).trans (ite_eq_left_iff.mpr fun _ => (if_pos request).trans taken)

theorem offerUp_of_room {f : Frame} {s : State} (room : s.relay.upQueue.length < 8) :
    offerUp f s = { s with relay := { s.relay with upQueue := s.relay.upQueue ++ [f] } } := if_pos room

theorem offerUp_of_full {f : Frame} {s : State} (full : 8 ≤ s.relay.upQueue.length) : offerUp f s = raised 6 (counted 28 s) :=
  (if_neg (Nat.not_lt.mpr full)).trans (occur_eq _ _)

end Sys2Proof.Machine

namespace Sys2Proof.Safety

open Sys2Proof.Machine

/-- Settles O40, by the frame in assembly after each symbol. -/
theorem symbolsMakeFrame : Obligations.SymbolsMakeFrame := fun p f s hears fits =>
  ⟨receiveFrame p f s, received_wire hears fits, by cases p <;> rfl⟩

/-- Settles O45, by the length and the direction class of the frame. -/
theorem framesRelayed : Obligations.FramesRelayed := by
  intro f s
  have fromU (hears : Hears .u s) (fits : f.payload.length ≤ 80) (down : f.kind.getLsbD 7 = false) :
      exec (.downstreamRelay f) s = .next (frameFromU f (heard .u s)) :=
    congrArg _ (receiveFrame_good hears fits ((kindFits_iff .u f.kind).mpr (iff_of_false (Bool.eq_false_iff.mp down) nofun)))
  have fromD (hears : Hears .d s) (fits : f.payload.length ≤ 80) (up : f.kind.getLsbD 7 = true) :
      exec (.upstreamRelay f) s = .next (offerUp f (heard .d s)) :=
    congrArg _ (receiveFrame_good hears fits ((kindFits_iff .d f.kind).mpr (iff_of_true up rfl)))
  refine ⟨fun hears fits down passing => ?_, fun hears fits up => ⟨fun room => ?_, fun full => ?_⟩,
    fun hears => ⟨fun long => congrArg _ (receiveFrame_oversize hears long),
      fun fits up => congrArg _ (receiveFrame_misdirected hears fits (kindFits_of_wrong (iff_of_true up rfl)))⟩,
    fun hears => ⟨fun long => congrArg _ (receiveFrame_oversize hears long),
      fun fits down => congrArg _
        (receiveFrame_misdirected hears fits (kindFits_of_wrong (iff_of_false (Bool.eq_false_iff.mp down) nofun)))⟩,
    fun deaf => congrArg _ (receiveFrame_of_not_hears deaf f), fun deaf => congrArg _ (receiveFrame_of_not_hears deaf f),
    fun c addr num code args spelt => exec_requestOf s spelt, fun _ _ => rfl, fun _ _ => rfl⟩
  · rw [fromU hears fits down, frameFromU_relayed (by rwa [heard_control, heard_relay])]
  · rw [fromD hears fits up, offerUp_of_room (by rwa [heard_relay]), heard_relay]
  · rw [fromD hears fits up, offerUp_of_full (by rwa [heard_relay])]

end Sys2Proof.Safety
end

section
/-! PROOFS. The transmit grants (R135, R158 to R161). -/

namespace Sys2Proof.Machine

open Sys2Proof.Safety

variable {f : Frame} {rest : List Frame} {s : State}

theorem sendU_eq (source : TxSource) (f : Frame) (s : State) :
    sendU source f s = { s with relay := { s.relay with txU := .sending source (wire f) } } := by
  rw [sendU, frameSymbols_eq]

theorem sendD_eq (source : TxSource) (f : Frame) (s : State) :
    sendD source f s = { s with relay := { s.relay with txD := .sending source (wire f) } } := by
  rw [sendD, frameSymbols_eq]

/-! ## Port U -/

theorem grantU_turn (noReply : s.request.slot = none) (noNotice : s.report.channel.slot = none) : grantU s = grantUTurn s := by
  simp only [grantU, noReply, noNotice]

theorem grantUTurn_relay (head : s.relay.upQueue = f :: rest) (turn : s.report.tallyQueue = [] ∨ s.relay.uTurn = .relay) :
    grantUTurn s = grantUpRelay f rest s := by
  unfold grantUTurn
  rcases turn with alone | turn
  · simp only [head, alone]
  · cases s.report.tallyQueue <;> simp only [head, turn]

theorem grantUTurn_tally (head : s.report.tallyQueue = f :: rest) (turn : s.relay.upQueue = [] ∨ s.relay.uTurn = .tally) :
    grantUTurn s = grantTally f rest s := by
  unfold grantUTurn
  rcases turn with alone | turn
  · simp only [head, alone]
  · cases s.relay.upQueue <;> simp only [head, turn]

/-! ## Port D -/

theorem grantD_relay (head : s.relay.downQueue = f :: rest) (turn : s.relay.handoffQueue = [] ∨ s.relay.dTurn = .relay) :
    grantD s = grantDownRelay f rest s := by
  unfold grantD
  rcases turn with alone | turn
  · simp only [head, alone]
  · cases s.relay.handoffQueue <;> simp only [head, turn]

theorem grantD_handoff (head : s.relay.handoffQueue = f :: rest) (turn : s.relay.downQueue = [] ∨ s.relay.dTurn = .handoff) :
    grantD s = grantHandoff f rest s := by
  unfold grantD
  rcases turn with alone | turn
  · simp only [head, alone]
  · cases s.relay.downQueue <;> simp only [head, turn]

end Sys2Proof.Machine

namespace Sys2Proof.Safety

open Sys2Proof.Machine

/-- Settles O46, by what waits to be sent, in the order of the arbiters. -/
theorem grantsFollowOrder : Obligations.GrantsFollowOrder := by
  intro s
  refine ⟨fun up free => ?_, fun closed => ?_, fun up free => ?_, fun closed => ?_⟩
  · have grant : exec .uTransmitGrant s = .next (grantU s) := by simp [exec, execUTransmitGrant, up, free]
    rw [grant]
    refine ⟨fun f reply => ?_, fun f noReply notice => ?_, fun f rest noReply noNotice head turn => ?_,
      fun f rest noReply noNotice head turn => ?_, fun noReply noNotice noRelay noTally => ?_⟩
    · simp only [grantU, reply, sendU_eq]
    · simp only [grantU, noReply, notice, sendU_eq]
    · rw [grantU_turn noReply noNotice, grantUTurn_relay head turn, grantUpRelay, sendU_eq]
    · rw [grantU_turn noReply noNotice, grantUTurn_tally head turn, grantTally, sendU_eq]
    · rw [grantU_turn noReply noNotice]
      simp only [grantUTurn, noRelay, noTally]
  · rcases closed with down | busy <;> simp [exec, execUTransmitGrant, *]
  · have grant : exec .dTransmitGrant s = .next (grantD s) := by simp [exec, execDTransmitGrant, up, free]
    rw [grant]
    refine ⟨fun f rest head turn => ?_, fun f rest head turn => ?_, fun noRelay noHandoff => ?_⟩
    · rw [grantD_relay head turn, grantDownRelay, sendD_eq]
    · rw [grantD_handoff head turn, grantHandoff, sendD_eq]
    · simp only [grantD, noRelay, noHandoff]
  · rcases closed with down | busy <;> simp [exec, execDTransmitGrant, *]

end Sys2Proof.Safety
end

section
/-! PROOFS. The queue of waiting commands: a step takes its front, and no event reads or writes the rest, the resets among them
(notes/assumptions/1.md, notes/assumptions/14.md). -/

namespace Sys2Proof.Machine

open Sys2Proof.Safety

/-! ## The link ports -/

@[simp] theorem portGoesDown_pending (p : Port) (s : State) : (portGoesDown p s).pending = s.pending := by
  have truncated : (if assembling (s.links.get p) then takeRxError p .truncated s else s).pending = s.pending := by split <;> rfl
  cases p <;> exact truncated

@[simp] theorem violationSymbol_pending (p : Port) (s : State) : (violationSymbol p s).pending = s.pending := by
  dsimp only [violationSymbol]
  split
  · exact portGoesDown_pending p _
  · rfl

@[simp] theorem alignSymbol_pending (p : Port) (sym : Symbol) (s : State) : (alignSymbol p sym s).pending = s.pending := by
  unfold alignSymbol
  split
  · rfl
  · split <;> rfl

@[simp] theorem receiveErrorEvent_pending (p : Port) (e : RxEvent) (s : State) : (receiveErrorEvent p e s).pending = s.pending := by
  unfold receiveErrorEvent
  split
  · rfl
  · split
    case h_8 => split <;> simp -- a violation symbol
    case h_9 | h_10 => split <;> rfl -- a data symbol or an EOF between frames
    all_goals rfl

/-! ## The notice channel, the bank check and the transmitters -/

@[simp] theorem takeExpiry_pending (s : State) : (takeExpiry s).pending = s.pending := by
  dsimp only [takeExpiry]
  split <;> rfl

@[simp] theorem completeCheck_pending (k : BankCheck) (s : State) : (completeCheck k s).pending = s.pending := by
  dsimp only [completeCheck]
  split <;> rfl

@[simp] theorem grantUTurn_pending (s : State) : (grantUTurn s).pending = s.pending := by
  unfold grantUTurn
  split
  case h_4 => split <;> rfl -- both queues hold a frame
  all_goals rfl

@[simp] theorem grantU_pending (s : State) : (grantU s).pending = s.pending := by
  unfold grantU
  split
  · rfl
  · split
    · rfl
    · exact grantUTurn_pending s

@[simp] theorem grantD_pending (s : State) : (grantD s).pending = s.pending := by
  unfold grantD
  split
  case h_4 => split <;> rfl -- both queues hold a frame
  all_goals rfl

@[simp] theorem startAckTimer_pending (s : State) : (startAckTimer s).pending = s.pending := by
  unfold startAckTimer
  split <;> rfl

@[simp] theorem completeSending_pending (p : Port) (s : State) : (completeSending p s).pending = s.pending := by
  cases p <;> dsimp only [completeSending] <;> split
  · exact startAckTimer_pending _
  all_goals rfl

/-! ## Edges, closes, window ends and faults -/

@[simp] theorem entryLeading_pending (e : Pos) (s : State) : (entryLeading e s).pending = s.pending :=
  matchEntry_keeps (P := fun t => t.pending = s.pending) (Q := fun t => t.pending = s.pending)
    (fun r x t ht => (removeRecord_pending _ r _ x t).trans ht)
    (fun t ht => by
      unfold createStray
      split <;> exact ht)
    (fun _ _ _ ht => ht) _ rfl

theorem bindOutlet_pending (k : OutletId) (t p : Pos) (len : BitVec 16) (r : ItemRecord) (s : State) :
    (bindOutlet k t p len r s).pending = s.pending := by
  dsimp only [bindOutlet]
  split
  · rfl
  · split <;> rfl

@[simp] theorem resolve_pending (t : Pos) (s : State) : (resolve t s).pending = s.pending := by
  unfold resolve
  split
  · rfl
  · split
    · dsimp only
      split
      · rfl
      · exact bindOutlet_pending ..
    · rfl

theorem handOff_pending (p : ItemRecord → Bool) (r : ItemRecord) (o : OutcomeKind) (x : Pos) (s : State) :
    (handOff p r o x s).pending = s.pending := by
  unfold handOff
  split <;> simp

@[simp] theorem exitLeading_pending (x : Pos) (s : State) : (exitLeading x s).pending = s.pending := by
  dsimp only [exitLeading, exitMissed, exitPassed]
  split
  · rfl
  · split <;> split <;> simp [handOff_pending]

@[simp] theorem confirmLeading_pending (k : OutletId) (x : Pos) (s : State) : (confirmLeading k x s).pending = s.pending := by
  unfold confirmLeading
  split
  · split <;> simp
  · rfl

@[simp] theorem takeEdge_pending (e : EyeId) (b : Bool) (x : Pos) (s : State) : (takeEdge e b x s).pending = s.pending := by
  unfold takeEdge trackEdge
  split
  · split <;> simp
  · rfl

@[simp] theorem edgeCommand_pending (e : EyeId) (b : Bool) (s : State) : (edgeCommand e b s).pending = s.pending := by
  unfold edgeCommand
  split
  · exact takeEdge_pending ..
  · rfl

@[simp] theorem takeWaitingEdge_pending (e : EyeId) (s : State) : (takeWaitingEdge e s).pending = s.pending := by
  unfold takeWaitingEdge
  split
  · exact takeEdge_pending ..
  · split
    · exact takeEdge_pending ..
    · rfl

@[simp] theorem closeApproach_pending (r : ItemRecord) (s : State) : (closeApproach r s).pending = s.pending :=
  removeRecord_pending ..

@[simp] theorem closeResolved_pending (p : ItemRecord → Bool) (r : ItemRecord) (s : State) :
    (closeResolved p r s).pending = s.pending := by
  dsimp only [closeResolved]
  split <;> simp

@[simp] theorem endWindows_pending (k : OutletId) (s : State) : (endWindows k s).pending = s.pending := rfl

@[simp] theorem flush_pending (s : State) : (flush s).pending = s.pending := by rw [flush_eq]

@[simp] theorem takeFault_pending (c : Cause) (s : State) : (takeFault c s).pending = s.pending := by
  unfold takeFault
  split
  · simp
  · rfl

@[simp] theorem takeDue_pending (d : Due) (s : State) : (takeDue d s).pending = s.pending := by cases d <;> simp [takeDue]

@[simp] theorem settle_pending (s : State) : (settle s).pending = s.pending := by
  have settled (n : Nat) : (settleFuel n s).pending = s.pending := by
    induction n generalizing s with
    | zero => rfl
    | succ n ih =>
      unfold settleFuel
      split
      · rfl
      · rw [ih, takeDue_pending]
  exact settled _

/-! ## ITEMs and ENUMERATEs -/

theorem trackItem_pending (i : ItemFields) (s : State) : (trackItem i s).pending = s.pending := by
  unfold trackItem
  split
  · rfl
  · split <;> simp

theorem outOfService_pending (i : ItemFields) (s : State) : (outOfService i s).pending = s.pending := by
  unfold outOfService
  split
  · simp
  · split <;> simp

@[simp] theorem takeItem_pending (payload : List Byte) (s : State) : (takeItem payload s).pending = s.pending := by
  unfold takeItem
  split
  · rfl
  · split
    · exact trackItem_pending ..
    · exact outOfService_pending ..

@[simp] theorem takeEnumerate_pending (f : Frame) (s : State) : (takeEnumerate f s).pending = s.pending := by
  dsimp only [takeEnumerate]
  split
  · rfl
  · split
    · exact offerDown_pending f s
    · rw [offerDown_pending]
      split <;> rfl

/-! ## Requests: every branch of a rule is a reply, after a change of one unit or of none -/

@[simp] theorem stopEffect_pending (s : State) : (stopEffect s).pending = s.pending := flush_pending s

/-- A request executed by its owning rule (R165). -/
@[simp] theorem owningRule_pending (code : RequestCode) (num : Byte) (args : List Byte) (s : State) :
    (owningRule code num args s).pending = s.pending := by
  cases code with
  | stopTracking =>
    dsimp only [owningRule, stopTrackingRule]
    split
    · exact stopEffect_pending s
    · rfl
  | restart => rfl
  | _ =>
    dsimp only [owningRule, readObjectRule, writeConfigRule, readCountersRule, openPlanRule, writeSegmentRule, commitPlanRule,
      dropPlanRule, startTrackingRule, recoverRule, ackNoticeRule, setNoticeMaskRule, fireTestRule]
    repeat' split
    all_goals rfl

theorem answerRequest_pending (num code : Byte) (args : List Byte) (s : State) :
    (answerRequest num code args s).pending = s.pending := by
  have executed : (executeRequest num code args s).pending = s.pending := by
    unfold executeRequest
    split
    · rfl
    · split
      · split
        · exact owningRule_pending ..
        · rfl
      · exact owningRule_pending ..
  unfold answerRequest
  split
  · split
    · rfl
    · exact executed
  · exact executed

theorem takeAddressed_pending (num code : Byte) (args : List Byte) (s : State) :
    (takeAddressed num code args s).pending = s.pending := by
  unfold takeAddressed
  split
  · rfl
  · split
    · exact answerRequest_pending ..
    · split
      · rfl
      · split
        · exact answerRequest_pending ..
        · rfl

theorem takeBroadcast_pending (payload : List Byte) (s : State) : (takeBroadcast payload s).pending = s.pending := by
  unfold takeBroadcast
  split
  · split
    · split <;> rfl
    · split
      · exact stopEffect_pending s
      · rfl
    · rfl
    · rfl
  · rfl

@[simp] theorem takeRequest_pending (f : Frame) (s : State) : (takeRequest f s).pending = s.pending := by
  unfold takeRequest
  split
  · unfold takeAddressedPayload
    split
    · exact takeAddressed_pending ..
    · rfl
  · split
    · rw [takeBroadcast_pending, offerDown_pending]
    · exact offerDown_pending f s

/-! ## Frames and symbols received -/

@[simp] theorem frameArrival_pending (p : Port) (f : Frame) (s : State) : (frameArrival p f s).pending = s.pending := by
  cases p with
  | d => exact offerUp_pending f s
  | u =>
    dsimp only [frameArrival, frameFromU]
    split
    · exact takeEnumerate_pending f s
    · split
      · exact offerDown_pending f s
      · split
        · exact takeRequest_pending f s
        · split
          · exact takeItem_pending f.payload s
          · exact offerDown_pending f s

@[simp] theorem heard_pending (p : Port) (s : State) : (heard p s).pending = s.pending := by
  unfold heard
  split <;> rfl

@[simp] theorem receiveFrame_pending (p : Port) (f : Frame) (s : State) : (receiveFrame p f s).pending = s.pending := by
  by_cases hears : Hears p s
  · rw [receiveFrame_eq p f s hears]
    split
    · simp
    · split <;> simp
  · rw [receiveFrame_of_not_hears hears]

@[simp] theorem plainSymbol_pending (p : Port) (sym : Symbol) (s : State) : (plainSymbol p sym s).pending = s.pending := by
  dsimp only [plainSymbol]
  split
  case h_5 => split <;> rfl -- the next byte of a frame in assembly
  case h_8 => split <;> simp -- its EOF
  case h_13 => simp -- a violation
  all_goals rfl

@[simp] theorem receiveSymbol_pending (p : Port) (sym : Symbol) (s : State) : (receiveSymbol p sym s).pending = s.pending := by
  unfold receiveSymbol
  split
  · rfl
  · split
    · split
      · exact violationSymbol_pending p s
      · exact plainSymbol_pending p _ s
    · exact alignSymbol_pending p sym s

end Sys2Proof.Machine

namespace Sys2Proof.Safety

open Sys2Proof.Machine

/-- Settles O3, by the commands: each is an event that leaves the queue alone, or nothing where its event is not due
(notes/assumptions/5.md). -/
theorem everyCommandCompletes : Obligations.EveryCommandCompletes := by
  intro c s
  cases hq : requestOf c with
  | some q =>
    obtain ⟨addr, num, code, args⟩ := q
    exact ⟨_, exec_requestOf s hq, receiveFrame_pending ..⟩
  | none =>
    cases c with
    | item | enumerate | downstreamRelay | upstreamRelay => exact ⟨_, rfl, receiveFrame_pending ..⟩
    | symbolReceived p sym => exact ⟨_, rfl, receiveSymbol_pending p sym s⟩
    | receiveError p e => exact ⟨_, rfl, receiveErrorEvent_pending p e s⟩
    | sendingComplete p => exact ⟨_, rfl, completeSending_pending p s⟩
    | entryLeadingEdge | entryTrailingEdge | confirmLeadingEdge | confirmTrailingEdge | exitLeadingEdge | exitTrailingEdge =>
      exact ⟨_, rfl, edgeCommand_pending ..⟩
    | resetAsserted | encoderDoubleChange | laneFullChange => exact ⟨_, rfl, rfl⟩
    | powerOn | resetReleased | testFireEnd | portUp =>
      refine ⟨_, rfl, ?_⟩
      split <;> rfl
    | stall | noticeChoice =>
      refine ⟨_, rfl, ?_⟩
      split
      · split <;> rfl
      · rfl
    | forwardCount | backwardCount | reversal | blockedLimitReached | approachWindowClose | confirmWindowClose | exitWindowClose
    | firingWindowEnd | bankCheckCompletion | ackTimeout | uTransmitGrant | dTransmitGrant =>
      refine ⟨_, rfl, ?_⟩
      split <;> simp
    | eyePinChange e high =>
      refine ⟨_, rfl, ?_⟩
      split
      · rfl
      · split
        · rfl
        · exact takeWaitingEdge_pending e s
    | portDown p cause =>
      refine ⟨_, rfl, ?_⟩
      split
      · rfl
      · split <;> split <;> simp
    | readRoute bank => cases bank <;> cases hq
    | _ => cases hq

/-- Settles O1, by the definition of a step on a queue that is not empty. -/
theorem stepTakesFrontCommand : Obligations.StepTakesFrontCommand := by
  intro c rest s front
  unfold step
  rw [front]

end Sys2Proof.Safety
end

section
/-! PROOFS. ITEM frames built and read back (R178, Table 11-3). -/

namespace Sys2Proof.Machine

open Sys2Proof.Safety

/-! ## The fields of a built ITEM, read back (Table 11-3) -/

theorem of16_halves (x : BitVec 16) : of16 (x.extractLsb' 8 8) (x.extractLsb' 0 8) = x :=
  (BitVec.extractLsb'_append_extractLsb'_eq_extractLsb' rfl).trans (BitVec.extractLsb'_eq_self (x := x))

/-- The destination bytes show by their first bit whether a destination is present, and hold its code. -/
theorem destBytes_read (dest : Option (BitVec 12)) :
    ∃ hi lo, destBytes dest = [hi, lo] ∧ hi.msb = dest.isSome ∧ ∀ d, dest = some d → (of16 hi lo).setWidth 12 = d := by
  cases dest with
  | none => exact ⟨0, 0, rfl, rfl, fun _ absent => nomatch absent⟩
  | some code =>
    refine ⟨_, _, rfl, ?_, fun d same => ?_⟩
    · simp [BitVec.msb_eq_getLsbD_last]
    · cases same
      rw [of16_halves]
      ext i hi
      simp

/-- The flags byte keeps each flag at the bit of Table 11-3. -/
theorem itemFlagsByte_bits (f : Flags) (lenPresent : Bool) :
    (⟨(itemFlagsByte f lenPresent).getLsbD 0, (itemFlagsByte f lenPresent).getLsbD 1, (itemFlagsByte f lenPresent).getLsbD 2,
      (itemFlagsByte f lenPresent).getLsbD 3⟩ : Flags) = f ∧ (itemFlagsByte f lenPresent).msb = lenPresent := by
  obtain ⟨stray, adopted, forcePass, trailFull⟩ := f
  revert stray adopted forcePass trailFull lenPresent
  decide

/-! ## Notes -/

theorem noteReason_reasonCode {why : Reason} (h : why ≠ .passed) : noteReason (byteOf (reasonCode why)) = some why := by
  cases why with
  | passed => exact absurd rfl h
  | _ => rfl

/-- A trail of notes that an ITEM may carry is read back from its bytes. -/
theorem parseNotes_noteBytes : ∀ trail : List Note, (∀ n ∈ trail, NoteFits n) → parseNotes (noteBytes trail) = some trail
  | [], _ => rfl
  | n :: rest, fits => by
    obtain ⟨low, high, reason⟩ := fits n List.mem_cons_self
    have byte : (n.addr.setWidth 8).toNat = n.addr.toNat := BitVec.toNat_setWidth_of_le (by decide)
    have address : ¬ ((n.addr.setWidth 8).toNat = 0 ∨ Config.maxAddress < (n.addr.setWidth 8).toNat) := by
      rw [byte, Config.maxAddress]
      omega
    have station : (n.addr.setWidth 8).setWidth 6 = n.addr := BitVec.setWidth_setWidth_of_le _ (by decide)
    have notes := parseNotes_noteBytes rest fun m hm => fits m (List.mem_cons_of_mem n hm)
    change parseNotes (n.addr.setWidth 8 :: byteOf (reasonCode n.reason) :: noteBytes rest) = some (n :: rest)
    unfold parseNotes
    rw [if_neg address, noteReason_reasonCode reason, notes, station]

theorem length_noteBytes (trail : List Note) : (noteBytes trail).length = 2 * trail.length := by
  simp [noteBytes, Nat.mul_comm]

theorem refused_of_noteReason_none {b : Byte} (h : noteReason b = none) : b = 0 ∨ 9 < b.toNat := by
  by_contra range
  obtain ⟨positive, small⟩ := not_or.mp range
  have low : b.toNat ≠ 0 := fun zero => positive (BitVec.eq_of_toNat_eq zero)
  have code : b.toNat = 1 ∨ b.toNat = 2 ∨ b.toNat = 3 ∨ b.toNat = 4 ∨ b.toNat = 5 ∨ b.toNat = 6 ∨ b.toNat = 7 ∨ b.toNat = 8
      ∨ b.toNat = 9 := by omega
  rcases code with code | code | code | code | code | code | code | code | code <;> simp [noteReason, code] at h

/-- The bytes of a note that R178 refuses. -/
abbrev NoteRefused (a r : Byte) : Prop := a = 0 ∨ 62 < a.toNat ∨ r = 0 ∨ 9 < r.toNat

/-- Notes in whole pairs of bytes are refused for one of them that is out of range: the converse of `parseNotes_none`. -/
theorem noteRefused_of_parseNotes_none : ∀ (l : List Byte) (k : Nat), l.length = 2 * k → parseNotes l = none →
    ∃ j, j < k ∧ NoteRefused (l.getD (2 * j) 0) (l.getD (2 * j + 1) 0)
  | [], _, _, h => nomatch h
  | [_], _, odd, _ => by simp only [List.length_singleton] at odd; omega
  | _ :: _ :: _, 0, odd, _ => nomatch odd
  | a :: r :: rest, k + 1, len, h => by
    by_cases first : NoteRefused a r
    · exact ⟨0, k.succ_pos, first⟩
    · obtain ⟨nonzero, station, reason⟩ : a ≠ 0 ∧ ¬ 62 < a.toNat ∧ ¬ (r = 0 ∨ 9 < r.toNat) := by
        simpa only [NoteRefused, not_or] using first
      have address : ¬ (a.toNat = 0 ∨ Config.maxAddress < a.toNat) :=
        not_or.mpr ⟨fun zero => nonzero (BitVec.eq_of_toNat_eq zero), station⟩
      obtain ⟨why, read⟩ := Option.ne_none_iff_exists'.mp (mt refused_of_noteReason_none reason)
      have rests : parseNotes rest = none := by
        cases notes : parseNotes rest with
        | none => rfl
        | some _ =>
          unfold parseNotes at h
          rw [if_neg address, read, notes] at h
          cases h
      obtain ⟨j, hj, refused⟩ := noteRefused_of_parseNotes_none rest k
        (by simp only [List.length_cons] at len; omega) rests
      exact ⟨j + 1, Nat.succ_lt_succ hj, refused⟩

/-! ## A payload of ten bytes and more -/

section
variable {t1 t0 d1 d0 plan fl hop l1 l0 k : Byte} {rest : List Byte}

theorem parseItem_sound {notes : List Note} (capacity : k.toNat ≤ 6) (length : rest.length = 2 * k.toNat)
    (hn : parseNotes rest = some notes) (dest : fl.getLsbD 0 = true ∨ d1.msb = true) :
    parseItem (t1 :: t0 :: d1 :: d0 :: plan :: fl :: hop :: l1 :: l0 :: k :: rest) =
      some
        { tag := if fl.getLsbD 0 then 0 else of16 t1 t0
          dest := if fl.getLsbD 0 then none else some ((of16 d1 d0).setWidth 12)
          plan := if fl.getLsbD 0 then 0 else plan
          flags := ⟨fl.getLsbD 0, fl.getLsbD 1, fl.getLsbD 2, fl.getLsbD 3⟩
          hop := hop
          len := of16 l1 l0
          lenPresent := fl.msb
          trail := notes } := by
  have room : ¬ (Config.trailCapacity < k.toNat ∨ rest.length ≠ 2 * k.toNat) :=
    not_or.mpr ⟨Nat.not_lt.mpr capacity, not_not.mpr length⟩
  have known : ¬ (!d1.msb && !fl.getLsbD 0) = true := by
    rcases dest with h | h <;> simp [h]
  rw [parseItem, if_neg room, hn]
  exact if_neg known

/-- What the reader refuses of ten bytes and more, by its four tests. -/
theorem refused_of_parseItem_none
    (h : parseItem (t1 :: t0 :: d1 :: d0 :: plan :: fl :: hop :: l1 :: l0 :: k :: rest) = none) :
    6 < k.toNat ∨ rest.length ≠ 2 * k.toNat ∨ (rest.length = 2 * k.toNat ∧ parseNotes rest = none)
      ∨ (d1.msb = false ∧ fl.getLsbD 0 = false) := by
  by_contra accepted
  simp only [not_or, not_and, Nat.not_lt, not_not, Bool.not_eq_false] at accepted
  obtain ⟨capacity, length, notes, dest⟩ := accepted
  obtain ⟨trail, hn⟩ := Option.ne_none_iff_exists'.mp (notes length)
  have known : fl.getLsbD 0 = true ∨ d1.msb = true := by
    cases present : d1.msb with
    | true => exact .inr rfl
    | false => exact .inl (dest present)
  rw [parseItem_sound capacity length hn known] at h
  cases h

end

end Sys2Proof.Machine

namespace Sys2Proof.Safety

open Sys2Proof.Machine

/-- An ITEM built of fields that fit is read as its fields, those of a STRAY one as R178 takes them. -/
theorem parseItem_itemFrame {i : ItemFields} (room : i.trail.length ≤ 6) (fits : ∀ n ∈ i.trail, NoteFits n)
    (known : i.flags.stray = true ∨ i.dest.isSome = true) :
    parseItem (itemFrame i).payload =
      some
        { i with
          tag := if i.flags.stray then 0 else i.tag
          dest := if i.flags.stray then none else i.dest
          plan := if i.flags.stray then 0 else i.plan } := by
  obtain ⟨hi, lo, bytes, present, code⟩ := destBytes_read i.dest
  obtain ⟨flags, lenPresent⟩ := itemFlagsByte_bits i.flags i.lenPresent
  have stray : (itemFlagsByte i.flags i.lenPresent).getLsbD 0 = i.flags.stray := congrArg Flags.stray flags
  have count : (byteOf i.trail.length).toNat = i.trail.length := Nat.mod_eq_of_lt (by omega)
  have layout : (itemFrame i).payload =
      i.tag.extractLsb' 8 8 :: i.tag.extractLsb' 0 8 :: hi :: lo :: i.plan :: itemFlagsByte i.flags i.lenPresent :: i.hop
        :: i.len.extractLsb' 8 8 :: i.len.extractLsb' 0 8 :: byteOf i.trail.length :: noteBytes i.trail := by
    rw [itemFrame, bytes]
    rfl
  rw [layout, parseItem_sound (by rw [count]; exact room) (by rw [length_noteBytes, count]) (parseNotes_noteBytes i.trail fits)
    (by rw [stray, present]; exact known), flags, lenPresent, stray, of16_halves, of16_halves]
  cases strayed : i.flags.stray with
  | true => rfl
  | false =>
    obtain ⟨d, hd⟩ := Option.isSome_iff_exists.mp (known.resolve_left (by simp [strayed]))
    rw [code d hd, hd]

/-- What the reader refuses, R178 refuses: the converse of `parseItem_refused`. -/
theorem refusedItem_of_parseItem_none {payload : List Byte} (h : parseItem payload = none) : RefusedItem payload := by
  match payload, h with
  | t1 :: t0 :: d1 :: d0 :: plan :: fl :: hop :: l1 :: l0 :: k :: rest, h =>
    rcases refused_of_parseItem_none h with above | odd | ⟨length, notes⟩ | noDest
    · exact .inr (.inl above)
    · refine .inr (.inr (.inl fun whole => odd ?_))
      have whole : rest.length + 10 = 10 + 2 * k.toNat := whole
      omega
    · obtain ⟨j, hj, note⟩ := noteRefused_of_parseNotes_none rest k.toNat length notes
      refine .inr (.inr (.inr (.inl ⟨j, hj, ?_⟩)))
      rw [show 10 + 2 * j = 2 * j + 10 by omega, show 11 + 2 * j = 2 * j + 1 + 10 by omega]
      exact note
    · exact .inr (.inr (.inr (.inr noDest)))
  | [], _ | [_], _ | [_, _], _ | [_, _, _], _ | [_, _, _, _], _ | [_, _, _, _, _], _ | [_, _, _, _, _, _], _
  | [_, _, _, _, _, _, _], _ | [_, _, _, _, _, _, _, _], _ | [_, _, _, _, _, _, _, _, _], _ => exact .inl (by simp)

/-- Settles O41: the layout of Table 11-3 read back field by field, and the tests of R178 in both directions. -/
theorem itemReadBack : Obligations.ItemReadBack := by
  refine ⟨fun tag dest plan flags hop len lenPresent trail room fits known => ?_,
    fun payload => ⟨refusedItem_of_parseItem_none, parseItem_refused⟩⟩
  rw [← itemFrame_eq ⟨tag, dest, plan, flags, hop, len, lenPresent, trail⟩]
  exact parseItem_itemFrame room fits known

end Sys2Proof.Safety
end
